-- ==== Sys2Proof/Word.lean ====
section
/-! DEFINITION. The one word type of the part: the byte. Everything the spec counts, clamps or compares
(counts, indices, gains, margins, times) is a `Nat` or an `Int`, as 00_scope.md says "All arithmetic in this
manual is on integers". -/
namespace Sys2Proof

/-- A byte of a message, frame or voice sample (00_scope.md: "Bytes of 8 bits"). -/
abbrev Byte := BitVec 8

end Sys2Proof
end

