-- ==== Sys2Proof/Syntax.lean ====
section
/-! DEFINITION. The commands of the Bavrel 640: the closed sets of names the spec uses, the operands a command
carries, and `Instr`, one constructor per row of spec/opcode_table.json. The table gives no operand bits; the
operands here are what the rule of each row says the event, message or request carries, and the physical
quantities the part measures (log entry 5). -/
namespace Sys2Proof

/-- The two handset ports (00_scope.md, "Ports"). -/
inductive Port where
  | p1 | p2
  deriving DecidableEq, Repr

/-- The two voice slots (R104). -/
inductive Slot where
  | s0 | s1
  deriving DecidableEq, Repr

/-- The port set of a RING order: {1}, {2} or {1, 2} (R104, R199). -/
inductive PortSet where
  | one | two | both
  deriving DecidableEq, Repr

/-- Downstream is received (RX), upstream is transmitted (TX); numbered 0 and 1 in R199. -/
inductive Dir where
  | rx | tx
  deriving DecidableEq, Repr

/-- The two banks of a direction (R17). -/
inductive BankId where
  | a | b
  deriving DecidableEq, Repr

/-- The bank selector of READ_TONES (R39). -/
inductive BankSel where
  | active | standby | a | b
  deriving DecidableEq, Repr

/-- The state of a tone setting (R20). -/
inductive ToneState where
  | active | masked | retired
  deriving DecidableEq, Repr

/-- The field WRITE_TONES changes (R40). -/
inductive ToneField where
  | cap | state
  deriving DecidableEq, Repr

/-- The function WRITE_TONES applies (R40). -/
inductive ToneFn where
  | set | add | min | max
  deriving DecidableEq, Repr

/-- The actions of LINE_CONTROL (R63). -/
inductive LineAction where
  | enable | disable | retrainNow
  deriving DecidableEq, Repr

/-- The direction of STEP_MARGIN (R64). -/
inductive StepWay where
  | up | down
  deriving DecidableEq, Repr

/-- The actions of SET_PORT (R100). -/
inductive PortAction where
  | enable | disable
  deriving DecidableEq, Repr

/-- Where the classification map sends a home frame (R123). -/
inductive Destination where
  | priority | bulk | discard
  deriving DecidableEq, Repr

/-- The two sides of a route (R148). -/
inductive Side where
  | home | operator
  deriving DecidableEq, Repr

/-- The two management channels (Chapter 12, section 12.1). -/
inductive Channel where
  | home | operator
  deriving DecidableEq, Repr

/-- The five test types, in the order of R168. -/
inductive TestType where
  | lineVoltage | lineInsulation | lineLoop | portRinger | portLeak
  deriving DecidableEq, Repr

/-- The battery states, in the order of R179. -/
inductive Battery where
  | none | good | low | exhausted
  deriving DecidableEq, Repr

/-- The three training messages the part sends (R44). -/
inductive TrainMsg where
  | trainStart | rxTable | tablesReady
  deriving DecidableEq, Repr

/-- One entry of a swap order: tone, new bits, new gain (R36, R37, R199). -/
structure SwapEntry where
  tone : Nat
  bits : Nat
  gain : Int
  deriving DecidableEq, Repr

/-- What the Tester's circuits measure over a test (R168): the DC voltage (signed) and the rms AC voltage of the
pair, the two wires' resistances to earth (kΩ), the loop resistance (Ω; `none` is a loop found open), the ringer
load (tenths of a standard ringer) and the port wiring's lowest resistance (kΩ). A test uses its own entries. -/
structure Measurement where
  dcVolts : Int
  acVolts : Nat
  wireAOhms : Nat
  wireBOhms : Nat
  loopOhms : Option Nat
  ringerLoad : Nat
  leakOhms : Nat
  deriving DecidableEq, Repr

/-- The pattern of SEARCH_TONES (R41): a wanted value and a don't-care mark for each attribute. -/
structure TonePattern where
  state : ToneState
  loaded : Bool
  overCap : Bool
  belowFloor : Bool
  anyState : Bool
  anyLoaded : Bool
  anyOverCap : Bool
  anyBelowFloor : Bool
  deriving DecidableEq, Repr

/-- A value offered to FACTORY_PROGRAM for one of the six items of R195, in their order there; `unknown` is an
item that is not one of the six. -/
inductive FactoryValue where
  | identity (serial : Nat) (revision : Int)
  | managementType (value : Int)
  | thresholds (t : List Int)
  | cadences (entries : List (List (Int × Int)))
  | margins (r d m u : Int)
  | holdCeiling (tone : Int)
  | unknown
  deriving DecidableEq, Repr

/-- How a request reached the part: its channel (which is its origin), its tag (R198) and, from the home link, the
source address its response goes back to. -/
structure Via where
  ch : Channel
  tag : Nat
  addr : List Byte
  deriving DecidableEq, Repr

/-- The commands of the block: one constructor per row of spec/opcode_table.json, in its order. The three training messages
carry the bytes received, cut at borders of their fields (R44): a header is the kind byte and the two length bytes, a body the
header and the content. -/
inductive Instr where
  -- Start-up and time
  | powerOn (mains : Bool) (battery : Battery) (loop1 loop2 : Bool)
  | restartTakesEffect
  | cycleBoundary (samples : List Int) (energy nominal : Nat)
  | secondBoundary
  | intervalClose
  -- The line frame
  | receiveSymbol (ratios : List Int) (tones : List (List Bool))
  | transmitSymbol (voice1 voice2 : Byte × Byte)
  | overheadMessageSent
  | overheadRoomFill
  | receivedMessageDiscarded (kind : Byte) (length : Nat) (content : List Byte)
  -- Training
  | trainingRepeat (msg : TrainMsg)
  | trainReply (kind : Byte) (length content check : List Byte)
  | handshakeTimerExpiry
  | probeStart
  | probeEnd
  | txTable (header content check : List Byte)
  | entry (body check : List Byte)
  | tablesTimerExpiry
  | serviceEntry (port2First : Bool)
  | backoffExpiry
  -- Holding the line
  | noSignalTimeout
  | retrainSecondsTrigger
  | severeSecondsTrigger
  | rxShiftStart
  | loadingPassDone (port2First : Bool)
  | rateOfferTimeout
  | rateOffer (dir : Dir) (count : Nat) (hold : Bool) (first : Nat) (tones : List (Nat × Int))
  | rateAccept (count : Nat)
  | rateDecline (reason : Nat)
  | rateWithdraw
  | rxShiftApplied
  | txShiftApplied
  | swapOrder (dir : Dir) (count : Nat) (entries : List SwapEntry)
  | swapAck
  | swapReject (reason : Nat)
  | rxSwapApplied
  | txSwapApplied
  | swapWaitExpiry
  | toneHoldExpiry (tone : Nat)
  -- Impulse noise
  | predictionTimerExpiry
  | windowTailExpiry
  | quietScheduleOffer
  | quietSchedule (dir : Dir) (period cycle symbol width : Nat)
  | quietCancel (dir : Dir)
  -- Handset ports
  | loopSenseChange (port : Port) (closed : Bool) (elapsed : Nat)
  | debounceExpiry (port : Port)
  | breakPulseLimitPassed (port : Port)
  | breakTimerExpiry (port : Port)
  | makeTimerExpiry (port : Port)
  | toneTimerExpiry (port : Port)
  | cadencePhaseEnd
  | ringTimerExpiry (order : Nat)
  -- Voice slots
  | seizureWaitExpiry (slot : Slot)
  | seizeAck (slot : Slot)
  | seizeNak (slot : Slot)
  | release (slot : Slot) (reason : Nat)
  | ring (ports : PortSet) (cadence : Nat) (order : Nat)
  | ringStop (order : Nat)
  -- Home link
  | mgmtRequest (request : List Byte)
  | homeFrameReceived (frame : List Byte) (checkAgrees : Bool)
  | homeLinkUp
  | homeLinkDown
  | pauseRepeatExpiry
  | homeFrameSent
  | homeBufferRoom (noticeFirst : Bool)
  -- Archive and tests
  | programDone (agrees : Bool)
  | eraseComplete (allBlank : Bool)
  | testComplete (measured : Measurement)
  | autoTestStart
  -- Supply
  | mainsSenseChange (present : Bool) (elapsed : Nat)
  | mainsLossQualified
  | mainsReturnQualified
  | batteryStateChange (battery : Battery)
  | powerLossHoldExpiry
  | lineWakeSignal
  | settleTimerExpiry
  | wakeWindowExpiry
  -- Management
  | requestDispatch (ch : Channel)
  | factoryProgramDone (agrees : Bool)
  | readStatus (via : Via)
  | readTones (via : Via) (dir : Dir) (bank : BankSel) (first last : Int)
  | searchTones (via : Via) (dir : Dir) (pattern : TonePattern) (limit : Int)
  | readLine (via : Via)
  | readImpulse (via : Via)
  | readPort (via : Via) (port : Int)
  | readSlots (via : Via)
  | readQueues (via : Via)
  | readCounters (via : Via)
  | readIntervals (via : Via) (first count : Int)
  | readNoticeState (via : Via)
  | readArchive (via : Via) (first count : Int)
  | readTestResults (via : Via)
  | readSupply (via : Via)
  | writeTones (via : Via) (dir : Dir) (first last stride : Int) (field : ToneField) (fn : ToneFn) (value : Int)
  | lineControl (via : Via) (action : LineAction)
  | setMargins (via : Via) (r d m u : Int)
  | stepMargin (via : Via) (way : StepWay)
  | setHoldCeiling (via : Via) (tone : Int)
  | loadThresholds (via : Via) (t : List Int)
  | setQuiet (via : Via) (width : Int) (enable : Bool)
  | setPort (via : Via) (port : Int) (action : PortAction)
  | setPortTiming (via : Via) (port pulse flash make ring : Int)
  | loadCadences (via : Via) (entries : List (List (Int × Int)))
  | setQueueMap (via : Via) (map : List Nat)
  | setThresholds (via : Via) (t : List Int)
  | setRoutes (via : Via) (side : Side) (flags : List Bool) (master : Bool)
  | setArchiveThreshold (via : Via) (severity : Nat)
  | eraseArchiveBlock (via : Via) (block : Int)
  | setArchiveMode (via : Via) (mode : Nat)
  | clearArchiveStatus (via : Via)
  | runTest (via : Via) (test : Nat) (port : Int) (force : Bool)
  | setTestLimits (via : Via) (test : Nat) (warn fail : Int)
  | setWake (via : Via) (port1 port2 line mainsReturn : Bool)
  | restart (via : Via)
  | factoryOpen (via : Via)
  | factoryClose (via : Via)
  | factoryProgram (via : Via) (value : FactoryValue)
  | lossOfPower
  deriving DecidableEq, Repr

end Sys2Proof
end

