-- ==== Sys2Proof/Config.lean ====
section
/-! DEFINITION. What the spec leaves open and an implementation fixes: constants with no body, so that nothing can be
proved of their value (log entries 12 to 15). A claim that mentions one holds for every value of it. -/
namespace Sys2Proof.Config

/-- The companded idle code, "the codec decodes this code as silence" (R5); its bits are not given (log entry 12). -/
opaque idleCode : Byte

/-- The companded samples of the local tones (R91 gives frequencies and pattern, not sample values): tone 0 is the
refusal tone, 1 the no-service tone; the second argument is the number of the pair, 40 to a cycle since the tone started (log
entry 12). -/
opaque toneSamples : Nat → Nat → Byte × Byte

/-- The byte that stands in a report for a field that holds "none" (R198 gives no encoding for it): which field it
is, and the byte's place in it (log entry 13). -/
opaque absentByte : Nat → Nat → Byte

/-- The frame check sequence the home transmitter puts at the end of a frame, byte by byte (R198 names it and gives no
algorithm; log entry 14). -/
opaque frameCheck : List Byte → Nat → Byte

/-- The number a TRAINING_FAILED notice carries for its reason: no single rule lists the four reasons, so R199's
numbering does not reach them (log entry 15). Arguments 0..3: HANDSHAKE_TIMEOUT, LINE_TOO_WEAK, TX_INVALID,
TABLES_TIMEOUT. -/
opaque trainingReason : Nat → Int

/-- The first parameter of TEST_RESULT, "Test type with port" (R142): two values in one parameter, packing not given
(log entry 15). Arguments: test type 0..4, port 0 (none), 1 or 2. -/
opaque testTarget : Nat → Nat → Int

/-- The first parameter of ARCHIVE_ERROR, "Error: PROGRAM_FAILED or ERASE_FAILED" (R142): numbering not given (log
entry 15). Arguments 0 (PROGRAM_FAILED), 1 (ERASE_FAILED). -/
opaque archiveError : Nat → Int

end Sys2Proof.Config
end

