-- ==== Sys2Proof/Machine/State.lean ====
section
/-! DEFINITION. The state of the Bavrel 640 as plain data, block by block as 00_scope.md's block table names them, with
the part right after a power-on reset (`State.reset`), and the reasons a step could stop.
A timer that can be stopped is an `Option Nat`: `none` is stopped, `some 0` has reached its end. Fields marked MODEL are
the model's own bookkeeping, not state the spec names (INVENTORY.md, '## State'). -/
namespace Sys2Proof.Machine

/-! ## Names -/

/-- The line states (R42). -/
inductive LineState where
  | off | handshake | probe | tables | service | wait | test
  deriving DecidableEq, Repr

/-- The reasons a SERVICE_LOST carries, in the order of the table of R54 (numbered from 1, R199). -/
inductive LossReason where
  | lowMargin | noSignal | severeSeconds | requested | shiftFailed | lineTooWeak | disabled | dormant | test
  deriving DecidableEq, Repr

/-- The reasons a TRAINING_FAILED carries (R45, R46, R47, R48, R49). -/
inductive TrainFail where
  | handshakeTimeout | lineTooWeak | txInvalid | tablesTimeout
  deriving DecidableEq, Repr

/-- The phases of the RX rate-shift record (R56). -/
inductive ShiftPhase where
  | idle | pass | offered | agreed
  deriving DecidableEq, Repr

/-- The kinds of an RX shift (R56). -/
inductive ShiftKind where
  | down | up | supply
  deriving DecidableEq, Repr

/-- The states of the period tracker (R70, R71). -/
inductive TrackState where
  | search | candidate | locked
  deriving DecidableEq, Repr

/-- What the tracker did with an event (R69). -/
inductive TrackUse where
  | reference | candidate | matched | stray | reset
  deriving DecidableEq, Repr

/-- The port states (R80, R85). -/
inductive PortState where
  | idle | seizing | connected | ringing | refused | noService | silent | testing | disabled
  deriving DecidableEq, Repr

/-- Why a port is REFUSED (R80). -/
inductive Refused where
  | capacity | exchange | timeout | cleared | shed
  deriving DecidableEq, Repr

/-- The debounced loop (R80, R81). -/
inductive LoopState where
  | onHook | offHook | brk
  deriving DecidableEq, Repr

/-- An item of the digit buffer (R84). -/
inductive DialItem where
  | digit (d : Nat)
  | flash
  deriving DecidableEq, Repr

/-- Slot states (R104). -/
inductive SlotState where
  | free | reserved | active
  deriving DecidableEq, Repr

/-- Why a slot was granted (R104). -/
inductive SlotUse where
  | outgoing | ring
  deriving DecidableEq, Repr

/-- The reasons the part sends in RELEASE, numbered in R199. -/
inductive ReleaseReason where
  | onHook | disabled | timeout | capacity
  deriving DecidableEq, Repr

/-- The reasons of RING_REFUSED, numbered in R199. -/
inductive RingRefusal where
  | disabled | portBusy | capacity
  deriving DecidableEq, Repr

/-- Notice classes, numbered in R200. -/
inductive NoticeClass where
  | line | impulse | phone | counter | test | supply | archive | system
  deriving DecidableEq, Repr

/-- Severities (00_scope.md), numbered in R200. -/
inductive Severity where
  | info | minor | major | critical
  deriving DecidableEq, Repr

/-- The notice codes, in the order of the table of R142 (numbered from 1, R200). -/
inductive NoticeCode where
  | serviceUp | serviceLost | trainingFailed | rateShifted | marginLowered | toneRetired | orderRejected
  | impulseLocked | impulseLost | callShed | threshold | testResult | mainsLost | mainsBack | batteryLow | woken
  | powerLoss | archiveError | archiveFull | eraseDone | factoryBlank | started
  deriving DecidableEq, Repr

/-- The twelve interval counters, in the order of R135. -/
inductive Counter where
  | es | ses | impulseEvents | quietSymbols | retrains | shiftsDown | shiftsUp | toneSwaps | callsAdmitted | callsLost
  | framesDropped | framesDiscarded
  deriving DecidableEq, Repr

/-- Block states of the block table (R152). -/
inductive BlockState where
  | erased | current | full | needsErase | bad
  deriving DecidableEq, Repr

/-- Sequencer states (R155). -/
inductive SeqState where
  | ready | programming | erasing | suspended | error
  deriving DecidableEq, Repr

/-- Archive modes (R165). -/
inductive ArchiveMode where
  | wrap | keep
  deriving DecidableEq, Repr

/-- Origins (00_scope.md, "Origins"). -/
inductive Origin where
  | home | operator | internal
  deriving DecidableEq, Repr

/-- Test verdicts (R176). -/
inductive Verdict where
  | none | pass | warn | fail | aborted
  deriving DecidableEq, Repr

/-- Supply states (R179). -/
inductive SupplyState where
  | full | hold | dormant
  deriving DecidableEq, Repr

/-- Wake reasons (R179). -/
inductive WakeReason where
  | none | port1 | port2 | line | mainsReturn
  deriving DecidableEq, Repr

/-- Result codes, numbered in R198. -/
inductive Result where
  | done | doneClamped | accepted | busy | refusedOrigin | refusedState | badParameter | unknownRequest
  deriving DecidableEq, Repr

/-- The reset kind last seen (R193, R194). -/
inductive ResetKind where
  | powerOn
  | restart (origin : Channel)
  deriving DecidableEq, Repr

/-- Pause frames: pause time at its largest value, or 0 (R126). -/
inductive Pause where
  | longest | zero
  deriving DecidableEq, Repr

/-! ## Time (Line Engine) -/

/-- The time base (R1, R2). -/
structure Time where
  cycleCount : Nat
  symbolNo : Nat
  secondPos : Nat
  uptime : Nat
  symbolCounter : Nat
  /-- MODEL: the boundary just passed is a second boundary whose SECOND_BOUNDARY has not been taken. -/
  secondDue : Bool
  /-- MODEL: uptime has just become a multiple of 900 and INTERVAL_CLOSE has not been taken. -/
  intervalDue : Bool
  /-- MODEL: the half millisecond of the local timebase (0 or 1; the flash program takes 0.5 ms). -/
  halfMs : Nat
  deriving DecidableEq, Repr

/-! ## Tone Store and Line Engine tables -/

/-- A tone record (R17). -/
structure ToneRec where
  bits : Nat
  gain : Int
  deriving DecidableEq, Repr

/-- A tone setting (R20). -/
structure ToneSetting where
  cap : Nat
  state : ToneState
  deriving DecidableEq, Repr

/-- An entry of the RX measurement table (R21). -/
structure Meas where
  s : Nat
  belowFloor : Nat
  deriving DecidableEq, Repr

/-- The margin settings (R25). -/
structure Margins where
  r : Nat
  d : Nat
  m : Nat
  u : Nat
  deriving DecidableEq, Repr

/-- The Tone Store with the Line Engine's tables. A bank lists the records of its direction's own tones in ascending
index (26 for TX from tone 6, 223 for RX from tone 33); every other tone reads 0 and 0 (R17). -/
structure Tones where
  rxA : List ToneRec
  rxB : List ToneRec
  txA : List ToneRec
  txB : List ToneRec
  rxActive : BankId
  txActive : BankId
  rxSet : List ToneSetting
  txSet : List ToneSetting
  meas : List Meas
  thresholds : List Nat
  margins : Margins
  credit : Nat
  holdCeiling : Nat
  lineMargin : Int
  /-- MODEL: good symbols of the present cycle (R21). -/
  goodSymbols : Nat
  deriving DecidableEq, Repr

/-! ## Loading Unit -/

/-- The inputs of a loading pass as they stood when it started (R27), and what is being done with it. -/
structure Pass where
  training : Bool
  s0 : List Int
  settings : List ToneSetting
  thresholds : List Nat
  credit : Nat
  m : Nat
  r : Nat
  ceiling : Nat
  holdCeiling : Bool
  vFloor : Nat
  bank : BankId
  /-- The line left SERVICE during the pass: Line Control ignores the result (R27, R55). -/
  ignored : Bool
  deriving DecidableEq, Repr

/-- The Loading Unit: a running pass and a waiting request (R27; only a training pass can have to wait). -/
structure Loader where
  running : Option Pass
  waiting : Bool
  deriving DecidableEq, Repr

/-! ## Line Control -/

/-- The line state record and the run counters (R42 to R55). -/
structure Line where
  state : LineState
  enabled : Bool
  attempts : Nat
  lastLoss : Option LossReason
  backoff : Nat
  handshakeTimer : Option Nat
  tablesTimer : Option Nat
  probeStart : Option Nat
  probeTimer : Option Nat
  probeSampled : Bool
  passStarted : Bool
  passHold : Bool
  rxTableSent : Bool
  txTableTaken : Bool
  readySent : Bool
  entryCount : Option Nat
  startRepeat : Option Nat
  rxTableRepeat : Option Nat
  readyRepeat : Option Nat
  losTimer : Nat
  retrainSeconds : Nat
  lowSeconds : Nat
  highSeconds : Nat
  severeSeconds : Nat
  rxHold : Bool
  txHold : Bool
  deriving DecidableEq, Repr

/-- The RX rate-shift record (R56). -/
structure RxShift where
  phase : ShiftPhase
  kind : ShiftKind
  supplyPending : Bool
  hold : Bool
  offerWait : Nat
  swapCount : Nat
  oldB : Nat
  holdOff : Option Nat
  deriving DecidableEq, Repr

/-- An agreed TX rate shift (R61). -/
structure TxShift where
  swapCount : Nat
  hold : Bool
  oldB : Nat
  deriving DecidableEq, Repr

/-- The RX tone swap in flight (R36). -/
structure RxSwap where
  entries : List SwapEntry
  swapCount : Nat
  wait : Option Nat
  weak : Nat
  /-- SWAP_ACK has been taken. -/
  acked : Bool
  /-- The swap count boundary has passed. -/
  passed : Bool
  /-- MODEL: the boundary just passed is the one at which the entries are written. -/
  due : Bool
  deriving DecidableEq, Repr

/-- An agreed TX tone swap (R37). -/
structure TxSwap where
  entries : List SwapEntry
  swapCount : Nat
  deriving DecidableEq, Repr

/-- The shift and swap records of Line Control. -/
structure Shifts where
  rx : RxShift
  tx : Option TxShift
  rxSwap : Option RxSwap
  txSwap : Option TxSwap
  /-- Tones under a retry hold, each with the uptime at which its hold ends (R36). -/
  held : List (Nat × Nat)
  deriving DecidableEq, Repr

/-! ## Impulse Tracker -/

/-- An entry of the event history (R69). -/
structure ImpulseEvent where
  position : Nat
  cycle : Nat
  symbol : Nat
  run : Nat
  inside : Bool
  use : TrackUse
  deriving DecidableEq, Repr

/-- A quiet schedule (Chapter 4): period, first window start and width, with (MODEL) `next`, the start of the window
now open or next to come: first + k·period. -/
structure Schedule where
  period : Nat
  first : Nat
  width : Nat
  next : Nat
  deriving DecidableEq, Repr

/-- The outstanding downstream schedule (R74, R75). `cycle` and `symbol` are its start as the message names it;
`accepted` once both ends have accepted it, until its first window start. -/
structure Outstanding where
  sched : Schedule
  cycle : Nat
  symbol : Nat
  accepted : Bool
  deriving DecidableEq, Repr

/-- The Impulse Tracker (R69 to R78). -/
structure Impulse where
  lastImpulse : Option Nat
  history : List ImpulseEvent
  state : TrackState
  reference : Option Nat
  p : Nat
  matchCount : Nat
  missCount : Nat
  prediction : Option Nat
  tail : Option Nat
  quietEnable : Bool
  width : Nat
  due : Bool
  down : Option Schedule
  downOut : Option Outstanding
  up : Option Schedule
  /-- Accepted upstream schedules whose first window has not come, in order of acceptance (R77). -/
  upNext : List Schedule
  exchangeCancel : Bool
  /-- A cancel names the next cycle boundary as the end of the downstream windows (R76). -/
  downEnding : Bool
  /-- The same for the upstream windows (R77). -/
  upEnding : Bool
  deriving DecidableEq, Repr

/-! ## Notices -/

/-- A notice record (R141). -/
structure Notice where
  sequence : Nat
  cls : NoticeClass
  severity : Severity
  code : NoticeCode
  uptime : Nat
  cycle : Nat
  params : List Int
  lostBefore : Nat
  deriving DecidableEq, Repr

/-- An entry of the notice queue: the record, its pending channels, its place in placement order, and, for each channel
that returned it, its place in the order of returns (R143, R146). -/
structure NoticeEntry where
  notice : Notice
  home : Bool
  overhead : Bool
  place : Nat
  homeReturn : Option Nat
  overheadReturn : Option Nat
  deriving DecidableEq, Repr

/-- A route: home side and operator side (R148). -/
structure Route where
  home : Bool
  operator : Bool
  deriving DecidableEq, Repr

/-- The Notice Unit (R141 to R149). -/
structure Notices where
  queue : List NoticeEntry
  nextSequence : Nat
  lost : Nat
  /-- One route per class, in the order of R200. -/
  routes : List Route
  homeEnable : Bool
  operatorEnable : Bool
  archiveThreshold : Severity
  /-- MODEL: the next place in placement order and in the order of returns. -/
  nextPlace : Nat
  deriving DecidableEq, Repr

/-! ## Framer -/

/-- A budget record (R6). -/
structure Budget where
  b : Nat
  v : Nat
  d : Nat
  committed : Nat
  deriving DecidableEq, Repr

/-- A response (R198). -/
structure Response where
  tag : Nat
  kind : Nat
  result : Result
  data : List Byte
  /-- The address a home response goes to (R198). -/
  addr : List Byte
  /-- It is the DONE of a RESTART (R194). -/
  ofRestart : Bool
  deriving DecidableEq, Repr

/-- The overhead messages the part sends (R16, R199). -/
inductive Msg where
  | rateOffer (hold : Bool) (tones : List (Nat × Int))
  | rateAccept (count : Nat)
  | rateDecline (reason : Nat)
  | rateWithdraw
  | swapOrder (count : Nat) (entries : List SwapEntry)
  | swapAck
  | swapReject (reason : Nat)
  | quietSchedule (period cycle symbol width : Nat)
  | quietCancel
  | powerLoss (reason : Nat)
  | seize (port : Port) (slot : Slot)
  | release (slot : Slot) (reason : ReleaseReason)
  | ringRefused (order : Nat) (reason : RingRefusal)
  | answer (order : Nat) (port : Port) (slot : Slot)
  | noAnswer (order : Nat)
  | flash (port : Port)
  | digit (port : Port) (d : Nat)
  | notice (n : Notice)
  | response (r : Response)
  deriving DecidableEq, Repr

/-- The classes of overhead messages, highest first (R13). -/
inductive MsgClass where
  | lineControl | signalling | notice | management
  deriving DecidableEq, Repr

/-- An entry of the overhead transmit queue (R13). -/
structure QueuedMsg where
  place : Int
  msg : Msg
  deriving DecidableEq, Repr

/-- The message in transmission: its bytes still to be carried and the cycle that carried the latest (R12, R75). -/
structure Sending where
  place : Int
  msg : Msg
  left : List Byte
  cycle : Nat
  deriving DecidableEq, Repr

/-- The overhead channel (R12 to R16). -/
structure Overhead where
  queue : List QueuedMsg
  sending : Option Sending
  /-- LINE_CONTROL messages waiting for room, oldest first (R14). -/
  waitingLine : List Msg
  /-- SIGNALLING messages waiting for room, oldest first (R14). -/
  waitingSignal : List Msg
  /-- The bytes received since the last message ended: empty is "between messages" (R16). -/
  received : List Byte
  /-- MODEL: the next place in enqueue order. -/
  nextPlace : Int
  deriving DecidableEq, Repr

/-- What the upstream byte stream is sending (R9, R127). -/
inductive UpStream where
  | boundary
  | fill (left : List Byte)
  | frame (priority : Bool) (left : List Byte)
  deriving DecidableEq, Repr

/-- What the part last put on the pair (R42): nothing, probe symbols, training symbols, or a payload symbol with the bits
of each tone (R3, R4): an output, MODEL. -/
inductive LineOut where
  | silent
  | probe
  | training
  | payload (tones : List (Nat × List Bool))
  deriving DecidableEq, Repr

/-- The Framer (R3 to R12). -/
structure Framer where
  rx : Budget
  tx : Budget
  up : UpStream
  /-- ALIGNED, or HUNT (R10, R11). -/
  hunting : Bool
  /-- Stream bytes collected since the frame boundary (ALIGNED) or the window (HUNT). -/
  window : List Byte
  /-- Output: what the part last put on the pair. -/
  lineOut : LineOut
  /-- Output: the gain applied to each TX tone's transmit power in the last payload symbol (R17); none otherwise. -/
  lineGains : List (Nat × Int)
  /-- Output: the training message last sent (R44), or RX_TABLE and then TABLES_READY when one step sends both (R47, R48). -/
  trainOut : List Byte
  deriving DecidableEq, Repr

/-! ## Handset Interface -/

/-- The timing settings of a port (R101). -/
structure Timing where
  pulse : Nat
  flash : Nat
  make : Nat
  ring : Nat
  deriving DecidableEq, Repr

/-- The cadence in use and its position (R80, R93, R94). `timer` is `none` until the first on-phase begins. -/
structure Cadence where
  pairs : List (Nat × Nat)
  pair : Nat
  on : Bool
  timer : Option Nat
  deriving DecidableEq, Repr

/-- A port record (R80). -/
structure PortRec where
  state : PortState
  refusal : Option Refused
  loop : LoopState
  debounce : Option Nat
  brk : Option Nat
  make : Option Nat
  pulses : Nat
  digits : List DialItem
  dialErrors : Nat
  lastDigit : Option Nat
  slot : Option Slot
  order : Option Nat
  cadence : Option Cadence
  unitHeld : Bool
  skipped : Bool
  ringTimer : Option Nat
  toneTimer : Option Nat
  wakeMark : Bool
  timing : Timing
  /-- The limits the present break is judged by (R82): those in force when it began. -/
  breakPulse : Nat
  breakFlash : Nat
  /-- The make limit in force when the make timer started (R83). -/
  makeLimit : Nat
  /-- An admission request of this port is held by the Call Slot Unit (R106). -/
  heldRequest : Bool
  /-- Input pin: the level of the loop-sense input, true when closed. -/
  closed : Bool
  /-- Output: the pairs of samples that the last command to pass any passed to the port's codec, in order (log entry 26). -/
  codec : List (Byte × Byte)
  deriving DecidableEq, Repr

/-- The Handset Interface: port records, cadence table, ring allowance (R80, R92, R95). -/
structure Handset where
  p1 : PortRec
  p2 : PortRec
  cadences : List (List (Nat × Nat))
  allowance : Nat
  deriving DecidableEq, Repr

/-! ## Call Slot Unit -/

/-- Who a slot belongs to (R104): the port, or the port set of an unanswered ring order. -/
inductive SlotParty where
  | none
  | port (p : Port)
  | set (ps : PortSet)
  deriving DecidableEq, Repr

/-- A slot record (R104). -/
structure SlotRec where
  state : SlotState
  use : Option SlotUse
  party : SlotParty
  order : Option Nat
  number : Nat
  admittedAt : Nat
  released : Bool
  wait : Option Nat
  stale : Nat
  last : Option (Byte × Byte)
  concealed : Nat
  /-- The slot has its 16 bits in the layout (R7: from the boundary after admission). -/
  laid : Bool
  deriving DecidableEq, Repr

/-- The Call Slot Unit (R104). -/
structure Slots where
  s0 : SlotRec
  s1 : SlotRec
  admissions : Nat
  newest : Option Slot
  deriving DecidableEq, Repr

/-! ## Data Queue Unit -/

/-- What a frame of the home delivery buffer is (R129). -/
inductive HomeItem where
  | data
  | response (r : Response)
  | notice (n : Notice)
  deriving DecidableEq, Repr

/-- A frame of the home delivery buffer. -/
structure HomeFrame where
  item : HomeItem
  bytes : List Byte
  deriving DecidableEq, Repr

/-- What the home transmitter is sending (R129). -/
inductive HomeTx where
  | idle
  /-- A pause frame, with the link control type it carries (R126). -/
  | pause (typeField : Nat) (p : Pause)
  | frame
  deriving DecidableEq, Repr

/-- The Data Queue Unit (R120 to R131). -/
structure Data where
  linkUp : Bool
  managementType : Nat
  map : List Destination
  priority : List (List Byte)
  bulk : List (List Byte)
  flowPause : Bool
  pauseTimer : Option Nat
  pauseDue : Option Pause
  buffer : List HomeFrame
  tx : HomeTx
  deriving DecidableEq, Repr

/-! ## Performance Monitor -/

/-- An entry of the interval ring (R136). -/
structure Interval where
  number : Nat
  start : Nat
  seconds : Nat
  partialFlag : Bool
  counters : List Nat
  crossings : List Bool
  deriving DecidableEq, Repr

/-- The Performance Monitor (R133 to R139); lists of twelve are in the order of R135. -/
structure Perf where
  failures : Nat
  outside : Nat
  noSignal : Bool
  number : Nat
  start : Nat
  seconds : Nat
  counters : List Nat
  crossings : List Bool
  ring : List Interval
  thresholds : List Nat
  /-- The interval in progress was begun by a restart, and "is also partial" (R137). -/
  begunByRestart : Bool
  /-- MODEL: cycles of the second in progress that passed in SERVICE (R134). -/
  serviceCycles : Nat
  deriving DecidableEq, Repr

/-! ## Archive Controller -/

/-- An archive copy waiting in the pending list (R154). -/
structure ArchCopy where
  cls : NoticeClass
  severity : Severity
  code : NoticeCode
  uptime : Nat
  params : List Int
  deriving DecidableEq, Repr

/-- An archive record (R151), with the bytes 28 to 30 of its slot (R200). -/
structure ArchRec where
  sequence : Nat
  powerOns : Nat
  copy : ArchCopy
  missedBefore : Nat
  spare : List Byte
  deriving DecidableEq, Repr

/-- What a used slot of the flash holds (R151). A slot not listed is blank. -/
inductive SlotImage where
  | record (r : ArchRec)
  | damaged
  deriving DecidableEq, Repr

/-- A block header (R150); a block with no valid header holds `none`. -/
structure Header where
  sequence : Nat
  eraseCount : Nat
  deriving DecidableEq, Repr

/-- A flash block: its header and its used slots, slot numbers strictly rising (R150). -/
structure FlashBlock where
  header : Option Header
  slots : List (Nat × SlotImage)
  deriving DecidableEq, Repr

/-- An entry of the block table (R152). -/
structure BlockEntry where
  state : BlockState
  sequence : Nat
  eraseCount : Nat
  nextOrdinary : Nat
  nextReserved : Nat
  damaged : Nat
  deriving DecidableEq, Repr

/-- A program in progress; `left` counts half milliseconds (R157). -/
structure Program where
  block : Nat
  slot : Nat
  record : ArchRec
  left : Nat
  deriving DecidableEq, Repr

/-- An erase running or suspended; `left` counts half milliseconds (R155, R160). -/
structure Erase where
  block : Nat
  origin : Origin
  left : Nat
  deriving DecidableEq, Repr

/-- The Archive Controller with its flash array (R150 to R167). -/
structure Archive where
  flash : List FlashBlock
  table : List BlockEntry
  pointer : Nat
  sequence : Nat
  blockSequence : Nat
  powerOns : Nat
  missed : Nat
  pendingList : List ArchCopy
  state : SeqState
  program : Option Program
  erase : Option Erase
  programFailed : Bool
  eraseFailed : Bool
  mode : ArchiveMode
  fullReported : Bool
  deriving DecidableEq, Repr

/-! ## Tester -/

/-- The test record of a held claim (R170). -/
structure Claim where
  test : TestType
  port : Option Port
  origin : Origin
  force : Bool
  lineBefore : Option LineState
  timer : Nat
  automatic : Bool
  deriving DecidableEq, Repr

/-- A WARN and a FAIL limit (R169); PORT_LEAK has no WARN limit and holds 0 there. -/
structure Limits where
  warn : Nat
  fail : Nat
  deriving DecidableEq, Repr

/-- An entry of the results table (R176). -/
structure TestEntry where
  verdict : Verdict
  value : Int
  port : Option Port
  origin : Option Origin
  uptime : Nat
  deriving DecidableEq, Repr

/-- The Tester (R168 to R178); tables in the order of R168. -/
structure Tester where
  claim : Option Claim
  limits : List Limits
  results : List TestEntry
  autoPending : Bool
  deriving DecidableEq, Repr

/-! ## Supply Controller -/

/-- The wake set (R179). -/
structure WakeSet where
  port1 : Bool
  port2 : Bool
  line : Bool
  mainsReturn : Bool
  deriving DecidableEq, Repr

/-- The supply record (R179). -/
structure Supply where
  state : SupplyState
  mainsSense : Bool
  mainsPresent : Bool
  lossTimer : Option Nat
  returnTimer : Option Nat
  battery : Battery
  lowReported : Bool
  powerLossDone : Bool
  /-- The power-loss hold in half milliseconds (R185). -/
  powerLossHold : Option Nat
  /-- A POWER_LOSS message placed by the running sequence is still to be carried (R185). -/
  powerLossWaiting : Bool
  wakeSet : WakeSet
  wakeReason : WakeReason
  settle : Option Nat
  wakeWindow : Option Nat
  deriving DecidableEq, Repr

/-! ## Management Unit and Factory Store -/

/-- A request in a channel's queue: its bytes (R198) and, from the home link, the source address. -/
structure QueuedRequest where
  bytes : List Byte
  addr : List Byte
  deriving DecidableEq, Repr

/-- A response in a channel's list; `taken` once the overhead transmit queue has taken it (R191). -/
structure ListedResponse where
  response : Response
  taken : Bool
  deriving DecidableEq, Repr

/-- One management channel (R190, R191). -/
structure Chan where
  requests : List QueuedRequest
  responses : List ListedResponse
  deriving DecidableEq, Repr

/-- A pending restart (R194): the origin of the first RESTART, the cycles left of the 1 s from its dispatch, and the
number of its DONE responses not yet sent. -/
structure PendingRestart where
  origin : Channel
  timer : Nat
  unsent : Nat
  deriving DecidableEq, Repr

/-- The Management Unit (R190, R191, R193, R194). -/
structure Mgmt where
  home : Chan
  operator : Chan
  restart : Option PendingRestart
  resetKind : ResetKind
  serial : Nat
  revision : Nat
  deriving DecidableEq, Repr

/-- A value checked for a Factory Store item (R195). -/
inductive Item where
  | identity (serial revision : Nat)
  | managementType (value : Nat)
  | thresholds (t : List Nat)
  | cadences (entries : List (List (Nat × Nat)))
  | margins (m : Margins)
  | holdCeiling (tone : Nat)
  deriving DecidableEq, Repr

/-- The state of a Factory Store item (R195). -/
inductive ItemState where
  | blank
  | programmed (value : Item)
  | spoiled
  deriving DecidableEq, Repr

/-- A Factory Store programming in progress (R196): the item's index in R195's order, its value, where the answer goes,
and the half milliseconds left of its 10 ms. -/
structure Programming where
  index : Nat
  value : Item
  via : Via
  left : Nat
  deriving DecidableEq, Repr

/-- The Factory Store (R195, R196). -/
structure Factory where
  items : List ItemState
  isOpen : Bool
  programming : Option Programming
  deriving DecidableEq, Repr

/-! ## The machine -/

/-- The whole part. `pending` is the queue of commands that wait, first in, first out. -/
structure State where
  pending : List Instr
  /-- MODEL: the part has power (false from LOSS_OF_POWER to POWER_ON). -/
  powered : Bool
  time : Time
  tones : Tones
  loader : Loader
  line : Line
  shifts : Shifts
  impulse : Impulse
  framer : Framer
  overhead : Overhead
  handset : Handset
  slots : Slots
  data : Data
  perf : Perf
  notices : Notices
  archive : Archive
  tester : Tester
  supply : Supply
  mgmt : Mgmt
  factory : Factory
  deriving DecidableEq, Repr

/-- The faults a step can end in. The spec gives every command an effect in every state, so no meaning raises it; the
type is closed by this one reason (raised by nobody: safe). -/
inductive Fault where
  /-- Raised by no meaning. -/
  | neverRaised
  deriving DecidableEq, Repr

/-- The refusals a step can end in. -/
inductive Refusal where
  /-- A command with no meaning in `exec` (safe: the model stops); no arm of this model answers it. -/
  | notModelled (mnemonic : String)
  deriving DecidableEq, Repr

/-! ## The values of each block after a reset -/

/-- R1, R2: every count 0. -/
def Time.reset : Time := ⟨0, 0, 0, 0, 0, false, false, 0⟩

/-- R24, the built-in threshold table T[2..12]. -/
def builtInThresholds : List Nat := [58, 73, 86, 99, 111, 123, 135, 148, 160, 172, 184]

/-- R25, the built-in margins. -/
def builtInMargins : Margins := ⟨4, 12, 24, 48⟩

/-- Section 2.10, with the Factory Store blank. -/
def Tones.reset : Tones where
  rxA := List.replicate 223 ⟨0, 0⟩
  rxB := List.replicate 223 ⟨0, 0⟩
  txA := List.replicate 26 ⟨0, 0⟩
  txB := List.replicate 26 ⟨0, 0⟩
  rxActive := .a
  txActive := .a
  rxSet := List.replicate 223 ⟨12, .active⟩
  txSet := List.replicate 26 ⟨12, .active⟩
  meas := List.replicate 223 ⟨0, 0⟩
  thresholds := builtInThresholds
  margins := builtInMargins
  credit := 12
  holdCeiling := 96
  lineMargin := 0
  goodSymbols := 0

/-- R27: no pass, no waiting request. -/
def Loader.reset : Loader := ⟨none, false⟩

/-- Section 3.7, before the line is started: state OFF, enabled, every count 0, every timer stopped. -/
def Line.reset : Line where
  state := .off
  enabled := true
  attempts := 0
  lastLoss := none
  backoff := 0
  handshakeTimer := none
  tablesTimer := none
  probeStart := none
  probeTimer := none
  probeSampled := false
  passStarted := false
  passHold := false
  rxTableSent := false
  txTableTaken := false
  readySent := false
  entryCount := none
  startRepeat := none
  rxTableRepeat := none
  readyRepeat := none
  losTimer := 0
  retrainSeconds := 0
  lowSeconds := 0
  highSeconds := 0
  severeSeconds := 0
  rxHold := false
  txHold := false

/-- R56: IDLE, no supply pending, hold flag clear, counts 0, no hold-off. -/
def RxShift.reset : RxShift := ⟨.idle, .down, false, false, 0, 0, 0, none⟩

/-- R36, R37, R56, R62: nothing in flight or agreed, no tone under hold. -/
def Shifts.reset : Shifts := ⟨RxShift.reset, none, none, none, []⟩

/-- Section 4.7; that no exchange cancel holds is the model's choice (log entry 38). -/
def Impulse.reset : Impulse where
  lastImpulse := none
  history := []
  state := .search
  reference := none
  p := 0
  matchCount := 0
  missCount := 0
  prediction := none
  tail := none
  quietEnable := true
  width := 2
  due := false
  down := none
  downOut := none
  up := none
  upNext := []
  exchangeCancel := false
  downEnding := false
  upEnding := false

/-- R7: every field of both records 0; R10, R15: nothing in progress. -/
def Framer.reset : Framer := ⟨⟨0, 0, 0, 0⟩, ⟨0, 0, 0, 0⟩, .boundary, false, [], .silent, [], []⟩

/-- R15: the queue empty, nothing in transmission or waiting, the receive side between messages. -/
def Overhead.reset : Overhead := ⟨[], none, [], [], [], 0⟩

/-- R80, R101: the default timing. -/
def Timing.reset : Timing := ⟨99, 699, 150, 120⟩

/-- R80: a port record after a reset, with its loop-sense input at `closed`. -/
def PortRec.reset (closed : Bool) : PortRec where
  state := .idle
  refusal := none
  loop := .onHook
  debounce := none
  brk := none
  make := none
  pulses := 0
  digits := []
  dialErrors := 0
  lastDigit := none
  slot := none
  order := none
  cadence := none
  unitHeld := false
  skipped := false
  ringTimer := none
  toneTimer := none
  wakeMark := false
  timing := Timing.reset
  breakPulse := 99
  breakFlash := 699
  makeLimit := 150
  heldRequest := false
  closed := closed
  codec := []

/-- R92, the built-in cadences. -/
def builtInCadences : List (List (Nat × Nat)) :=
  [ [(40, 80)], [(8, 4), (8, 60)], [(20, 60)], [(6, 4), (6, 4), (6, 60)], [(30, 30)], [(20, 10), (10, 60)],
    [(100, 100)], [(4, 4), (4, 4), (4, 4), (4, 60)] ]

/-- R104: a FREE slot record with `stale` stale answers. -/
def SlotRec.free (stale : Nat) : SlotRec where
  state := .free
  use := none
  party := .none
  order := none
  number := 0
  admittedAt := 0
  released := false
  wait := none
  stale := stale
  last := none
  concealed := 0
  laid := false

/-- R104. -/
def Slots.reset : Slots := ⟨SlotRec.free 0, SlotRec.free 0, 0, none⟩

/-- R123, the default map. -/
def defaultMap : List Destination := [.bulk, .bulk, .bulk, .bulk, .bulk, .priority, .priority, .priority]

/-- Section 7.9 with the link at `linkUp` and the management type value at `mtype`. -/
def Data.reset (linkUp : Bool) (mtype : Nat) : Data := ⟨linkUp, mtype, defaultMap, [], [], false, none, none, [], .idle⟩

/-- Section 8.6 after power-on. -/
def Perf.reset : Perf where
  failures := 0
  outside := 0
  noSignal := false
  number := 0
  start := 0
  seconds := 0
  counters := List.replicate 12 0
  crossings := List.replicate 12 false
  ring := []
  thresholds := List.replicate 12 0
  begunByRestart := false
  serviceCycles := 0

/-- R148: BOTH for every class but COUNTER, whose route is OPERATOR. -/
def defaultRoutes : List Route :=
  [⟨true, true⟩, ⟨true, true⟩, ⟨true, true⟩, ⟨false, true⟩, ⟨true, true⟩, ⟨true, true⟩, ⟨true, true⟩, ⟨true, true⟩]

/-- Section 8.6. -/
def Notices.reset : Notices := ⟨[], 0, 0, defaultRoutes, true, true, .major, 0⟩

/-- R169, the default limits, in the order of R168. -/
def defaultLimits : List Limits := [⟨10, 50⟩, ⟨150, 20⟩, ⟨1800, 5⟩, ⟨0, 50⟩, ⟨0, 20⟩]

/-- R176: verdict NONE. -/
def TestEntry.reset : TestEntry := ⟨.none, 0, none, none, 0⟩

/-- Section 10.7 after power-on. -/
def Tester.reset : Tester := ⟨none, defaultLimits, List.replicate 5 TestEntry.reset, false⟩

/-- R190, R191: an empty channel. -/
def Chan.reset : Chan := ⟨[], []⟩

/-- Log entry 7: the flash of a part never erased, no header and every slot blank. -/
def blankFlash : List FlashBlock := List.replicate 4 ⟨none, []⟩

/-- Log entry 7: a Factory Store with every item BLANK. -/
def blankItems : List ItemState := List.replicate 6 .blank

/-- The ring allowance of a supply state (R95). -/
def allowanceOf : SupplyState → Nat
  | .full => 2
  | .hold => 1
  | .dormant => 0

/-- The part right after a power-on reset (R193) with the mains present, the battery GOOD, both loops open, a flash never
erased and a blank Factory Store (log entries 6 and 7): the supply is FULL, the scan has found four blocks to erase and
begun the rotation erase of block 0 (R167, R159), STARTED and FACTORY_BLANK are queued (R193), and the line has entered
HANDSHAKE and sent its first TRAIN_START (R45). `Tests/Slice0.lean` shows that POWER_ON gives exactly this state. -/
def State.reset : State where
  pending := []
  powered := true
  time := Time.reset
  tones := Tones.reset
  loader := Loader.reset
  line := { Line.reset with state := .handshake, handshakeTimer := some 1000, startRepeat := some 20 }
  shifts := Shifts.reset
  impulse := Impulse.reset
  framer := { Framer.reset with
    lineOut := .training, trainOut := [0x01#8, 0x00#8, 0x01#8, 0x00#8, 0xC1#8, 0x45#8] }
  overhead := Overhead.reset
  handset := ⟨PortRec.reset false, PortRec.reset false, builtInCadences, 2⟩
  slots := Slots.reset
  data := Data.reset false 0xA5C1
  perf := Perf.reset
  notices :=
    { Notices.reset with
      queue := [⟨⟨0, .system, .info, .started, 0, 0, [0, 1], 0⟩, true, true, 0, none, none⟩,
                ⟨⟨1, .archive, .minor, .factoryBlank, 0, 0, [6], 0⟩, true, true, 1, none, none⟩]
      nextSequence := 2
      nextPlace := 2 }
  archive :=
    { flash := blankFlash
      table := [⟨.needsErase, 0, 0, 0, 126, 0⟩, ⟨.needsErase, 0, 0, 0, 126, 0⟩, ⟨.needsErase, 0, 0, 0, 126, 0⟩,
                ⟨.needsErase, 0, 0, 0, 126, 0⟩]
      pointer := 3
      sequence := 1
      blockSequence := 1
      powerOns := 1
      missed := 0
      pendingList := []
      state := .erasing
      program := none
      erase := some ⟨0, .internal, 800⟩
      programFailed := false
      eraseFailed := false
      mode := .wrap
      fullReported := false }
  tester := Tester.reset
  supply :=
    { state := .full
      mainsSense := true
      mainsPresent := true
      lossTimer := none
      returnTimer := none
      battery := .good
      lowReported := false
      powerLossDone := false
      powerLossHold := none
      powerLossWaiting := false
      wakeSet := ⟨true, true, true, true⟩
      wakeReason := .none
      settle := none
      wakeWindow := none }
  mgmt := ⟨Chan.reset, Chan.reset, none, .powerOn, 0, 0⟩
  factory := ⟨blankItems, false, none⟩

end Sys2Proof.Machine
end

