-- ==== Sys2Proof/Machine/Operands.lean ====
section
/-! DEFINITION. Operand forms: clamping, the numbering of names (R198 to R200), the byte layouts of messages, notices and
archive records, the line check of R9, and the reading of a received overhead message (R16, R199) and of a management
request (R198) into the command it spells. -/
namespace Sys2Proof

/-! ## Codes of the operand names (R198, R199) -/

def Port.index : Port → Nat
  | .p1 => 1
  | .p2 => 2

def Slot.index : Slot → Nat
  | .s0 => 0
  | .s1 => 1

def PortSet.code : PortSet → Nat
  | .one => 1
  | .two => 2
  | .both => 3

def PortSet.ports : PortSet → List Port
  | .one => [.p1]
  | .two => [.p2]
  | .both => [.p1, .p2]

def Dir.code : Dir → Nat
  | .rx => 0
  | .tx => 1

def TestType.index : TestType → Nat
  | .lineVoltage => 0
  | .lineInsulation => 1
  | .lineLoop => 2
  | .portRinger => 3
  | .portLeak => 4

def TestType.ofIndex : Nat → Option TestType
  | 0 => some .lineVoltage
  | 1 => some .lineInsulation
  | 2 => some .lineLoop
  | 3 => some .portRinger
  | 4 => some .portLeak
  | _ => none

def Battery.code : Battery → Nat
  | .none => 0
  | .good => 1
  | .low => 2
  | .exhausted => 3

def BankId.code : BankId → Nat
  | .a => 0
  | .b => 1

def Destination.code : Destination → Nat
  | .priority => 0
  | .bulk => 1
  | .discard => 2

def Channel.code : Channel → Nat
  | .home => 0
  | .operator => 1

def ToneState.code : ToneState → Nat
  | .active => 0
  | .masked => 1
  | .retired => 2

end Sys2Proof

namespace Sys2Proof.Machine

/-! ## Numbers -/

/-- 00_scope.md: "replaced by the lowest value of the range, and a value above its range by the highest". -/
def clamp (lo hi x : Int) : Int := if x < lo then lo else if hi < x then hi else x

/-- A clamped value as a natural number, for ranges that start at 0 or above. -/
def clampNat (lo hi : Nat) (x : Int) : Nat := (clamp lo hi x).toNat

/-- Whether clamping changed the value. -/
def wasClamped (lo hi x : Int) : Bool := x < lo || hi < x

/-- A distance in cycle counts, "the value (count − now) modulo 256" (R1). -/
def ahead (count now : Nat) : Nat := (count + (256 - now % 256)) % 256

/-- "4..64 ahead". -/
def swapAhead (count now : Nat) : Bool := 4 ≤ ahead count now && ahead count now ≤ 64

/-- Difference of symbol counter values, modulo 2^32 (R69). -/
def posSub (a b : Nat) : Nat := (a + (4294967296 - b % 4294967296)) % 4294967296

/-- Increment with saturation. -/
def satInc (top n : Nat) : Nat := if n < top then n + 1 else n

/-! ## Codes -/

def portSetOf : Port → PortSet
  | .p1 => .one
  | .p2 => .two

/-- R199, R113. -/
def ReleaseReason.code : ReleaseReason → Nat
  | .onHook => 1
  | .disabled => 2
  | .timeout => 3
  | .capacity => 4

/-- R199, R111. -/
def RingRefusal.code : RingRefusal → Nat
  | .disabled => 1
  | .portBusy => 2
  | .capacity => 3

/-- Reasons are "numbered from 1 in the order in which the rule that names them lists them" (R199); R54. -/
def LossReason.code : LossReason → Nat
  | .lowMargin => 1
  | .noSignal => 2
  | .severeSeconds => 3
  | .requested => 4
  | .shiftFailed => 5
  | .lineTooWeak => 6
  | .disabled => 7
  | .dormant => 8
  | .test => 9

def TrainFail.index : TrainFail → Nat
  | .handshakeTimeout => 0
  | .lineTooWeak => 1
  | .txInvalid => 2
  | .tablesTimeout => 3

/-- R200. -/
def NoticeClass.code : NoticeClass → Nat
  | .line => 0
  | .impulse => 1
  | .phone => 2
  | .counter => 3
  | .test => 4
  | .supply => 5
  | .archive => 6
  | .system => 7

/-- R200. -/
def Severity.code : Severity → Nat
  | .info => 0
  | .minor => 1
  | .major => 2
  | .critical => 3

def Severity.ofCode : Nat → Option Severity
  | 0 => some .info
  | 1 => some .minor
  | 2 => some .major
  | 3 => some .critical
  | _ => none

/-- R200: numbered from 1 in the order of R142. -/
def NoticeCode.code : NoticeCode → Nat
  | .serviceUp => 1
  | .serviceLost => 2
  | .trainingFailed => 3
  | .rateShifted => 4
  | .marginLowered => 5
  | .toneRetired => 6
  | .orderRejected => 7
  | .impulseLocked => 8
  | .impulseLost => 9
  | .callShed => 10
  | .threshold => 11
  | .testResult => 12
  | .mainsLost => 13
  | .mainsBack => 14
  | .batteryLow => 15
  | .woken => 16
  | .powerLoss => 17
  | .archiveError => 18
  | .archiveFull => 19
  | .eraseDone => 20
  | .factoryBlank => 21
  | .started => 22

/-- The place of a counter in the table of R135, from 0. -/
def Counter.index : Counter → Nat
  | .es => 0
  | .ses => 1
  | .impulseEvents => 2
  | .quietSymbols => 3
  | .retrains => 4
  | .shiftsDown => 5
  | .shiftsUp => 6
  | .toneSwaps => 7
  | .callsAdmitted => 8
  | .callsLost => 9
  | .framesDropped => 10
  | .framesDiscarded => 11

def Verdict.code : Verdict → Nat
  | .none => 0
  | .pass => 1
  | .warn => 2
  | .fail => 3
  | .aborted => 4

def WakeReason.code : WakeReason → Nat
  | .none => 0
  | .port1 => 1
  | .port2 => 2
  | .line => 3
  | .mainsReturn => 4

def LineState.code : LineState → Nat
  | .off => 0
  | .handshake => 1
  | .probe => 2
  | .tables => 3
  | .service => 4
  | .wait => 5
  | .test => 6

def SupplyState.code : SupplyState → Nat
  | .full => 0
  | .hold => 1
  | .dormant => 2

def SeqState.code : SeqState → Nat
  | .ready => 0
  | .programming => 1
  | .erasing => 2
  | .suspended => 3
  | .error => 4

def BlockState.code : BlockState → Nat
  | .erased => 0
  | .current => 1
  | .full => 2
  | .needsErase => 3
  | .bad => 4

/-- The three origins, numbered as spec/00_scope.md lists them (log entry 62). -/
def Origin.code : Origin → Nat
  | .home => 0
  | .operator => 1
  | .internal => 2

/-- R198. -/
def Result.code : Result → Nat
  | .done => 0
  | .doneClamped => 1
  | .accepted => 2
  | .busy => 3
  | .refusedOrigin => 4
  | .refusedState => 5
  | .badParameter => 6
  | .unknownRequest => 7

/-- The origin a channel gives its requests (section 12.1). -/
def Channel.origin : Channel → Origin
  | .home => .home
  | .operator => .operator

/-! ## Bytes, high byte first (section 12.7) -/

def byteOf (n : Nat) : Byte := BitVec.ofNat 8 n

def be16 (n : Nat) : List Byte := [byteOf (n / 256), byteOf n]

def be32 (n : Nat) : List Byte := [byteOf (n / 16777216), byteOf (n / 65536), byteOf (n / 256), byteOf n]

/-- "4 bytes, signed", in two's complement (R198). -/
def num (x : Int) : List Byte := be32 (x % 4294967296).toNat

def flagByte (b : Bool) : List Byte := [if b then 1#8 else 0#8]

def signedByte (x : Int) : Byte := byteOf (x % 256).toNat

def ofBe16 (hi lo : Byte) : Nat := 256 * hi.toNat + lo.toNat

/-- A byte read as a signed value. -/
def signedOf (b : Byte) : Int := b.toInt

/-! ## The check of R9: x^16 + x^12 + x^5 + 1 from 0xFFFF, most significant bit first, not inverted -/

def crcBit (r : BitVec 16) (b : Bool) : BitVec 16 :=
  if r.msb != b then (r <<< 1) ^^^ 0x1021#16 else r <<< 1

/-- The bits of a byte, most significant first (R3). -/
def bitsOf (x : Byte) : List Bool :=
  [x.getLsbD 7, x.getLsbD 6, x.getLsbD 5, x.getLsbD 4, x.getLsbD 3, x.getLsbD 2, x.getLsbD 1, x.getLsbD 0]

def crc16 (bytes : List Byte) : BitVec 16 :=
  bytes.foldl (fun r x => (bitsOf x).foldl crcBit r) 0xFFFF#16

/-- The check as the two bytes sent. -/
def checkBytes (bytes : List Byte) : List Byte := be16 (crc16 bytes).toNat

/-- The first 8 bits of a payload as a byte, most significant first; bits the payload lacks read 0. -/
def byteAt (bits : List Bool) : Byte :=
  byteOf ((bits.take 8 ++ List.replicate (8 - bits.length) false).foldl (fun n b => 2 * n + (if b then 1 else 0)) 0)

/-- The next `n` whole bytes of a bit sequence. -/
def bytesFrom : Nat → List Bool → List Byte
  | 0, _ => []
  | n + 1, bits => byteAt bits :: bytesFrom n (bits.drop 8)

/-! ## Records (R200) -/

/-- Three parameters of 4 bytes, those not used written as 0. -/
def paramBytes (ps : List Int) : List Byte :=
  num (ps.getD 0 0) ++ num (ps.getD 1 0) ++ num (ps.getD 2 0)

/-- A notice, 25 bytes (R200). -/
def Notice.bytes (n : Notice) : List Byte :=
  be16 n.sequence ++ [byteOf n.cls.code, byteOf n.severity.code, byteOf n.code.code] ++ be32 n.uptime ++
    [byteOf n.cycle, byteOf n.params.length] ++ paramBytes n.params ++ be16 n.lostBefore

/-- Bytes 0 to 30 of an archive record (R200). -/
def ArchRec.body (r : ArchRec) : List Byte :=
  be32 r.sequence ++ be16 r.powerOns ++ be32 r.copy.uptime ++
    [byteOf r.copy.cls.code, byteOf r.copy.severity.code, byteOf r.copy.code.code, byteOf r.copy.params.length] ++
    paramBytes r.copy.params ++ be16 r.missedBefore ++ r.spare

/-- The sum of bytes modulo 256. -/
def byteSum (bs : List Byte) : Byte := bs.foldl (· + ·) 0#8

/-- An archive record, 32 bytes, the last chosen "so that the 32 bytes of the slot sum to 0, modulo 256" (R151). -/
def ArchRec.bytes (r : ArchRec) : List Byte := r.body ++ [0#8 - byteSum r.body]

/-- A response (R198). -/
def Response.bytes (r : Response) : List Byte :=
  be16 r.tag ++ [byteOf r.kind, byteOf r.result.code] ++ be16 r.data.length ++ r.data

/-! ## Overhead messages of the part (R16, R199) -/

def tonePairs (tones : List (Nat × Int)) : List Byte :=
  tones.flatMap fun t => [byteOf t.1, signedByte t.2]

def Msg.cls : Msg → MsgClass
  | .rateOffer .. | .rateAccept .. | .rateDecline .. | .rateWithdraw | .swapOrder .. | .swapAck | .swapReject ..
  | .quietSchedule .. | .quietCancel | .powerLoss .. => .lineControl
  | .seize .. | .release .. | .ringRefused .. | .answer .. | .noAnswer .. | .flash .. | .digit .. => .signalling
  | .notice .. => .notice
  | .response .. => .management

def Msg.kind : Msg → Byte
  | .rateOffer .. => 0x11#8
  | .rateAccept .. => 0x12#8
  | .rateDecline .. => 0x13#8
  | .rateWithdraw => 0x14#8
  | .swapOrder .. => 0x15#8
  | .swapAck => 0x16#8
  | .swapReject .. => 0x17#8
  | .quietSchedule .. => 0x18#8
  | .quietCancel => 0x19#8
  | .powerLoss .. => 0x1A#8
  | .seize .. => 0x21#8
  | .release .. => 0x24#8
  | .ringRefused .. => 0x27#8
  | .answer .. => 0x28#8
  | .noAnswer .. => 0x29#8
  | .flash .. => 0x2A#8
  | .digit .. => 0x2B#8
  | .notice .. => 0x31#8
  | .response .. => 0x42#8

def Msg.content : Msg → List Byte
  | .rateOffer hold tones =>
    [0#8, 0#8] ++ flagByte hold ++ [byteOf 33, byteOf tones.length] ++ tonePairs tones
  | .rateAccept c => [byteOf c]
  | .rateDecline r => [byteOf r]
  | .rateWithdraw => []
  | .swapOrder c es =>
    [0#8, byteOf c, byteOf es.length] ++ es.flatMap fun e => [byteOf e.tone, byteOf e.bits, signedByte e.gain]
  | .swapAck => []
  | .swapReject r => [byteOf r]
  | .quietSchedule p c sym w => [0#8] ++ be16 p ++ [byteOf c, byteOf sym, byteOf w]
  | .quietCancel => [0#8]
  | .powerLoss r => [byteOf r]
  | .seize p sl => [byteOf p.index, byteOf sl.index]
  | .release sl r => [byteOf sl.index, byteOf r.code]
  | .ringRefused o r => be16 o ++ [byteOf r.code]
  | .answer o p sl => be16 o ++ [byteOf p.index, byteOf sl.index]
  | .noAnswer o => be16 o
  | .flash p => [byteOf p.index]
  | .digit p d => [byteOf p.index, byteOf d]
  | .notice n => n.bytes
  | .response r => r.bytes

/-- R12: "one kind byte, a 2-byte length (high byte first) …, and then the content". -/
def Msg.bytes (m : Msg) : List Byte := [m.kind] ++ be16 m.content.length ++ m.content

/-! ## Training messages of the part (R44) -/

/-- A training message: kind, length, content and check. -/
def trainingBytes (kind : Byte) (content : List Byte) : List Byte :=
  let body := [kind] ++ be16 content.length ++ content
  body ++ checkBytes body

/-! ## Reading -/

/-- The content of a received training message of a kind (R44): none when the kind is another, the length is not that of
the content, or the check of R9 does not agree. -/
def trainingContent (kind : Byte) (message : List Byte) : Option (List Byte) :=
  let body := message.take (message.length - 2)
  if 5 ≤ message.length ∧ message.head? = some kind ∧ ofBe16 (message.getD 1 0#8) (message.getD 2 0#8) = body.length - 3 ∧
      checkBytes body = message.drop body.length then some (body.drop 3)
  else none

/-- A reader of bytes: the value and what is left, or nothing when the bytes have not the form. -/
abbrev Reader (α : Type) := StateT (List Byte) Option α

def readByte : Reader Nat
  | [] => none
  | b :: rest => some (b.toNat, rest)

def readSignedByte : Reader Int
  | [] => none
  | b :: rest => some (signedOf b, rest)

def read16 : Reader Nat
  | a :: b :: rest => some (ofBe16 a b, rest)
  | _ => none

/-- A 4-byte unsigned value. -/
def read32 : Reader Nat
  | a :: b :: c :: d :: rest => some (65536 * ofBe16 a b + ofBe16 c d, rest)
  | _ => none

/-- A 4-byte signed value (R198). -/
def readNum : Reader Int := do
  let n ← read32
  return if n < 2147483648 then n else (n : Int) - 4294967296

/-- A flag byte: 0 is clear, anything else is set. -/
def readFlag : Reader Bool := do
  let n ← readByte
  return n != 0

/-- A byte numbered 0, 1, … over the given names. -/
def readEnum {α : Type} (names : List α) : Reader α := do
  let n ← readByte
  match names[n]? with
  | some a => return a
  | none => failure

/-- The reader is at the end of the bytes. -/
def readEnd : Reader Unit
  | [] => some ((), [])
  | _ => none

/-- `n` values in a row. -/
def readMany {α : Type} (r : Reader α) : Nat → Reader (List α)
  | 0 => return []
  | n + 1 => do
    let a ← r
    let rest ← readMany r n
    return a :: rest

def readBetween (lo hi : Nat) : Reader Nat := do
  let n ← readByte
  if lo ≤ n ∧ n ≤ hi then return n else failure

def readDir : Reader Dir := readEnum [.rx, .tx]
def readSlot : Reader Slot := readEnum [.s0, .s1]

def readTone : Reader (Nat × Int) := do
  let b ← readByte
  let g ← readSignedByte
  return (b, g)

/-- The content of a TX_TABLE (R44): a first tone, a count n and n pairs of bits and gain. -/
def readToneTable : Reader (Nat × List (Nat × Int)) := do
  let first ← readByte
  let n ← readByte
  let tones ← readMany readTone n
  return (first, tones)

def readSwapEntry : Reader SwapEntry := do
  let t ← readByte
  let b ← readByte
  let g ← readSignedByte
  return ⟨t, b, g⟩

def readPortSet : Reader PortSet := do
  let n ← readByte
  match n with
  | 1 => return .one
  | 2 => return .two
  | 3 => return .both
  | _ => failure

/-- The content of a received overhead message by its kind (R199): the command it spells, or nothing when the kind is
not one the part receives or the content has not the form its kind requires (R16). -/
def messageReader (kind : Byte) (content : List Byte) : Reader Instr :=
  match kind.toNat with
  | 0x11 => do
    let dir ← readDir
    let count ← readByte
    let hold ← readFlag
    let first ← readByte
    let n ← readBetween 1 223
    let tones ← readMany readTone n
    readEnd
    if first + n - 1 ≤ 255 then return .rateOffer dir count hold first tones else failure
  | 0x12 => do
    let c ← readByte
    readEnd
    return .rateAccept c
  | 0x13 => do
    let r ← readByte
    readEnd
    return .rateDecline r
  | 0x14 => do
    readEnd
    return .rateWithdraw
  | 0x15 => do
    let dir ← readDir
    let count ← readByte
    let n ← readBetween 1 4
    let es ← readMany readSwapEntry n
    readEnd
    return .swapOrder dir count es
  | 0x16 => do
    readEnd
    return .swapAck
  | 0x17 => do
    let r ← readByte
    readEnd
    return .swapReject r
  | 0x18 => do
    let dir ← readDir
    let p ← read16
    let c ← readByte
    let sym ← readBetween 0 39
    let w ← readByte
    readEnd
    return .quietSchedule dir p c sym w
  | 0x19 => do
    let dir ← readDir
    readEnd
    return .quietCancel dir
  | 0x22 => do
    let sl ← readSlot
    readEnd
    return .seizeAck sl
  | 0x23 => do
    let sl ← readSlot
    readEnd
    return .seizeNak sl
  | 0x24 => do
    let sl ← readSlot
    let r ← readByte
    readEnd
    return .release sl r
  | 0x25 => do
    let ps ← readPortSet
    let c ← readBetween 0 7
    let o ← read16
    readEnd
    return .ring ps c o
  | 0x26 => do
    let o ← read16
    readEnd
    return .ringStop o
  | 0x41 => if 5 ≤ content.length ∧ content.length ≤ 512 then (fun _ => some (.mgmtRequest content, [])) else failure
  | _ => failure

/-- R16, R199: what a received overhead message hands to its owner. -/
def readMessage (kind : Byte) (content : List Byte) : Option Instr :=
  if 512 < content.length then none else ((messageReader kind content) content).map (·.1)

/-! ## Requests (R192, R198) -/

def readCadenceEntry : Reader (List (Int × Int)) := do
  let n ← readByte
  readMany (do
    let a ← readNum
    let b ← readNum
    return (a, b)) n

def readFactoryValue : Reader FactoryValue := do
  let item ← readByte
  match item with
  | 0 => do
    let serial ← read32
    let rev ← readNum
    return .identity serial rev
  | 1 => do
    let v ← readNum
    return .managementType v
  | 2 => do
    let t ← readMany readNum 11
    return .thresholds t
  | 3 => do
    let es ← readMany readCadenceEntry 8
    return .cadences es
  | 4 => do
    let r ← readNum
    let d ← readNum
    let m ← readNum
    let u ← readNum
    return .margins r d m u
  | 5 => do
    let c ← readNum
    return .holdCeiling c
  | _ => fun _ => some (.unknown, [])

/-- The parameters of a request by its kind code, in the order the owning rule names its arguments (R198). A table of fixed length
(the values of LOAD_THRESHOLDS, SET_THRESHOLDS, SET_QUEUE_MAP and SET_ROUTES, the entries of LOAD_CADENCES, the tables of
FACTORY_PROGRAM) is read without a count byte, the pairs of a cadence entry with one (log entry 79). -/
def requestReader (v : Via) (kind : Nat) : Reader Instr :=
  match kind with
  | 0x01 => return .readStatus v
  | 0x02 => do
    let dir ← readDir
    let sel ← readEnum [.active, .standby, .a, .b]
    let f ← readNum
    let l ← readNum
    return .readTones v dir sel f l
  | 0x03 => do
    let dir ← readDir
    let st ← readEnum [.active, .masked, .retired]
    let loaded ← readFlag
    let above ← readFlag
    let below ← readFlag
    let a1 ← readFlag
    let a2 ← readFlag
    let a3 ← readFlag
    let a4 ← readFlag
    let limit ← readNum
    return .searchTones v dir ⟨st, loaded, above, below, a1, a2, a3, a4⟩ limit
  | 0x04 => return .readLine v
  | 0x05 => return .readImpulse v
  | 0x06 => do
    let p ← readNum
    return .readPort v p
  | 0x07 => return .readSlots v
  | 0x08 => return .readQueues v
  | 0x09 => return .readCounters v
  | 0x0A => do
    let f ← readNum
    let c ← readNum
    return .readIntervals v f c
  | 0x0B => return .readNoticeState v
  | 0x0C => do
    let f ← readNum
    let c ← readNum
    return .readArchive v f c
  | 0x0D => return .readTestResults v
  | 0x0E => return .readSupply v
  | 0x10 => do
    let dir ← readDir
    let f ← readNum
    let l ← readNum
    let st ← readNum
    let field ← readEnum [.cap, .state]
    let fn ← readEnum [.set, .add, .min, .max]
    let x ← readNum
    return .writeTones v dir f l st field fn x
  | 0x11 => do
    let a ← readEnum [.enable, .disable, .retrainNow]
    return .lineControl v a
  | 0x12 => do
    let r ← readNum
    let d ← readNum
    let m ← readNum
    let u ← readNum
    return .setMargins v r d m u
  | 0x13 => do
    let w ← readEnum [.up, .down]
    return .stepMargin v w
  | 0x14 => do
    let t ← readNum
    return .setHoldCeiling v t
  | 0x15 => do
    let t ← readMany readNum 11
    return .loadThresholds v t
  | 0x16 => do
    let w ← readNum
    let e ← readFlag
    return .setQuiet v w e
  | 0x17 => do
    let p ← readNum
    let a ← readEnum [.enable, .disable]
    return .setPort v p a
  | 0x18 => do
    let p ← readNum
    let a ← readNum
    let b ← readNum
    let c ← readNum
    let d ← readNum
    return .setPortTiming v p a b c d
  | 0x19 => do
    let es ← readMany readCadenceEntry 8
    return .loadCadences v es
  | 0x1A => do
    let m ← readMany (readBetween 0 2) 8
    return .setQueueMap v m
  | 0x1B => do
    let t ← readMany readNum 12
    return .setThresholds v t
  | 0x1C => do
    let side ← readEnum [.home, .operator]
    let fl ← readMany readFlag 8
    let m ← readFlag
    return .setRoutes v side fl m
  | 0x1D => do
    let sev ← readBetween 0 3
    return .setArchiveThreshold v sev
  | 0x1E => do
    let b ← readNum
    return .eraseArchiveBlock v b
  | 0x1F => do
    let m ← readBetween 0 1
    return .setArchiveMode v m
  | 0x20 => return .clearArchiveStatus v
  | 0x21 => do
    let t ← readBetween 0 4
    let p ← readNum
    let f ← readFlag
    return .runTest v t p f
  | 0x22 => do
    let t ← readBetween 0 4
    let w ← readNum
    let f ← readNum
    return .setTestLimits v t w f
  | 0x23 => do
    let a ← readFlag
    let b ← readFlag
    let c ← readFlag
    let d ← readFlag
    return .setWake v a b c d
  | 0x24 => return .restart v
  | 0x25 => return .factoryOpen v
  | 0x26 => return .factoryClose v
  | 0x27 => do
    let x ← readFactoryValue
    return .factoryProgram v x
  | _ => failure

/-- The request the parameters spell, or nothing when they have not the form the kind requires (R191 check 3, R198). -/
def readRequest (v : Via) (kind : Nat) (params : List Byte) : Option Instr :=
  match requestReader v kind params with
  | some (i, []) => some i
  | _ => none

/-- The kind codes of the permission table (R192). -/
def knownKind (k : Nat) : Bool := (1 ≤ k && k ≤ 0x0E) || (0x10 ≤ k && k ≤ 0x27)

/-- The kinds allowed from the operator origin only (R192). -/
def operatorOnly (k : Nat) : Bool :=
  k ∈ [0x12, 0x13, 0x14, 0x15, 0x19, 0x1D, 0x1E, 0x1F, 0x22, 0x25, 0x26, 0x27]

/-- Whether the permission table allows the kind from the channel's origin (R191 check 2, R192). -/
def originAllowed (k : Nat) : Channel → Bool
  | .operator => true
  | .home => !operatorOnly k

end Sys2Proof.Machine
end

