-- ==== Sys2Proof/Machine/Ops.lean ====
section
/-! DEFINITION. The named operations over the state that every family uses: how a command's effect becomes an outcome,
the accessors of ports, slots, banks and settings, the counted timers, raising a notice with its archive copy, the flash
array, and counting an event. -/
namespace Sys2Proof.Machine

/-- How a command's effect becomes its outcome: a part with power has the effect, a part without power has none (log
entry 4). No command of the spec ends in a fault or a refusal. -/
def run (f : State → State) (s : State) : Host.Outcome State Fault Refusal :=
  .next (if s.powered then f s else s)

/-- The effect of an event that the spec lets arise only under a condition: when the condition does not hold, the event
has not arisen and nothing happens (log entry 2). -/
def whenDue (due : Bool) (f : State → State) (s : State) : State := if due then f s else s

/-! ## Timers counted by rows of the table -/

/-- A timer counts down by one; a stopped timer stays stopped and one at its end stays there. -/
def tickDown (t : Option Nat) : Option Nat := t.map (· - 1)

/-- The instant of a cycle boundary: no symbol of the new cycle has been received (R1). -/
def State.atBoundary (s : State) : Bool := s.time.symbolNo == 0

/-- The uptime `n` seconds ahead (R2: 32 bits, wrapping). -/
def laterUptime (now n : Nat) : Nat := (now + n) % 4294967296

/-- The uptime has reached the instant `t` (compared on the wrapping count: less than half the range past it). -/
def reached (now t : Nat) : Bool := posSub now t < 2147483648

/-! ## Ports and slots -/

def otherPort : Port → Port
  | .p1 => .p2
  | .p2 => .p1

def otherSlot : Slot → Slot
  | .s0 => .s1
  | .s1 => .s0

def State.port (s : State) : Port → PortRec
  | .p1 => s.handset.p1
  | .p2 => s.handset.p2

def State.setPort (s : State) : Port → PortRec → State
  | .p1, r => { s with handset.p1 := r }
  | .p2, r => { s with handset.p2 := r }

/-- Change one port record. -/
def onPort (p : Port) (f : PortRec → PortRec) (s : State) : State := s.setPort p (f (s.port p))

/-- Change both port records. -/
def onPorts (f : PortRec → PortRec) (s : State) : State := onPort .p2 f (onPort .p1 f s)

def State.slot (s : State) : Slot → SlotRec
  | .s0 => s.slots.s0
  | .s1 => s.slots.s1

def State.setSlot (s : State) : Slot → SlotRec → State
  | .s0, r => { s with slots.s0 := r }
  | .s1, r => { s with slots.s1 := r }

/-- Change one slot record. -/
def onSlot (k : Slot) (f : SlotRec → SlotRec) (s : State) : State := s.setSlot k (f (s.slot k))

def SlotRec.isFree (r : SlotRec) : Bool := r.state == .free

/-- The number of non-FREE slots (R6, R106). -/
def Slots.inUse (sl : Slots) : Nat := (if sl.s0.isFree then 0 else 1) + (if sl.s1.isFree then 0 else 1)

/-- Both slots are FREE. -/
def Slots.allFree (sl : Slots) : Bool := sl.s0.isFree && sl.s1.isFree

/-! ## Tones (R17, R20) -/

def firstTone : Dir → Nat
  | .rx => 33
  | .tx => 6

def toneCount : Dir → Nat
  | .rx => 223
  | .tx => 26

/-- A tone "of a direction" (00_scope.md: TX 6..31, RX 33..255). -/
def inDir (d : Dir) (tone : Nat) : Bool := firstTone d ≤ tone && tone < firstTone d + toneCount d

def otherBank : BankId → BankId
  | .a => .b
  | .b => .a

def Tones.bank (t : Tones) : Dir → BankId → List ToneRec
  | .rx, .a => t.rxA
  | .rx, .b => t.rxB
  | .tx, .a => t.txA
  | .tx, .b => t.txB

def Tones.setBank (t : Tones) : Dir → BankId → List ToneRec → Tones
  | .rx, .a, l => { t with rxA := l }
  | .rx, .b, l => { t with rxB := l }
  | .tx, .a, l => { t with txA := l }
  | .tx, .b, l => { t with txB := l }

def Tones.activeId (t : Tones) : Dir → BankId
  | .rx => t.rxActive
  | .tx => t.txActive

def Tones.setActive (t : Tones) : Dir → BankId → Tones
  | .rx, k => { t with rxActive := k }
  | .tx, k => { t with txActive := k }

def Tones.active (t : Tones) (d : Dir) : List ToneRec := t.bank d (t.activeId d)

def Tones.standby (t : Tones) (d : Dir) : List ToneRec := t.bank d (otherBank (t.activeId d))

def Tones.settings (t : Tones) : Dir → List ToneSetting
  | .rx => t.rxSet
  | .tx => t.txSet

def Tones.setSettings (t : Tones) : Dir → List ToneSetting → Tones
  | .rx, l => { t with rxSet := l }
  | .tx, l => { t with txSet := l }

/-- The record of a tone in a bank of a direction: 0 and 0 outside the direction's tones (R17). -/
def recAt (d : Dir) (bank : List ToneRec) (tone : Nat) : ToneRec :=
  if inDir d tone then bank.getD (tone - firstTone d) ⟨0, 0⟩ else ⟨0, 0⟩

/-- The setting of a tone of a direction (R20). -/
def settingAt (d : Dir) (settings : List ToneSetting) (tone : Nat) : ToneSetting :=
  settings.getD (tone - firstTone d) ⟨12, .active⟩

/-- B, "the sum of its bits fields" (R17). -/
def bitTotal (bank : List ToneRec) : Nat := bank.foldl (fun n r => n + r.bits) 0

/-- The bank gain sum (R19). -/
def gainSum (bank : List ToneRec) : Int := bank.foldl (fun n r => n + r.gain) 0

/-- T[b] of the threshold table (R24), b in 2..12. -/
def threshold (t : List Nat) (b : Nat) : Nat := t.getD (b - 2) 0

/-! ## Flash (R150) -/

/-- What a slot of a block holds; a slot not listed is blank. -/
def FlashBlock.read (b : FlashBlock) (slot : Nat) : Option SlotImage := (b.slots.find? (·.1 == slot)).map (·.2)

/-- Put an image into a slot, keeping the slot numbers strictly rising. -/
def putSlot (slot : Nat) (img : SlotImage) : List (Nat × SlotImage) → List (Nat × SlotImage)
  | [] => [(slot, img)]
  | (k, x) :: rest =>
    if slot < k then (slot, img) :: (k, x) :: rest
    else if slot = k then (slot, img) :: rest
    else (k, x) :: putSlot slot img rest

def FlashBlock.write (b : FlashBlock) (slot : Nat) (img : SlotImage) : FlashBlock :=
  { b with slots := putSlot slot img b.slots }

/-- The canonical form of a block's slots: slot numbers strictly rising, each in 0..127. -/
def FlashBlock.wf (b : FlashBlock) : Bool :=
  b.slots.all (fun e => e.1 < 128) && (b.slots.zip b.slots.tail).all (fun e => e.1.1 < e.2.1)

def Archive.block (a : Archive) (i : Nat) : FlashBlock := a.flash.getD i ⟨none, []⟩

def Archive.setBlock (a : Archive) (i : Nat) (f : FlashBlock → FlashBlock) : Archive :=
  { a with flash := a.flash.modify i f }

/-- A block scanned as NEEDS_ERASE: erase count 0 (R167); its other numbers are those of a block that holds nothing (log entry
63). -/
def BlockEntry.blank : BlockEntry := ⟨.needsErase, 0, 0, 0, 126, 0⟩

def Archive.entry (a : Archive) (i : Nat) : BlockEntry := a.table.getD i BlockEntry.blank

def Archive.setEntry (a : Archive) (i : Nat) (f : BlockEntry → BlockEntry) : Archive :=
  { a with table := a.table.modify i f }

/-! ## The archive's pending list and programs (R153 to R157, R161) -/

/-- The value the sequence counters stay at and never give (R153). -/
def sequenceTop : Nat := 4294967295

/-- The CURRENT block, when there is one (R152). -/
def Archive.current (a : Archive) : Option Nat := a.table.findIdx? (·.state == .current)

/-- The block is the target of the erase running or suspended. -/
def Archive.isTarget (a : Archive) (i : Nat) : Bool :=
  match a.erase with
  | some e => e.block == i
  | none => false

/-- The last-FULL block: "the FULL block with the highest block sequence that is not the target of an erase running or
suspended" (R152). -/
def Archive.lastFull (a : Archive) : Option Nat :=
  (List.range 4).foldl (fun best i =>
    if (a.entry i).state == .full && !a.isTarget i then
      match best with
      | none => some i
      | some j => if (a.entry j).sequence < (a.entry i).sequence then some i else some j
    else best) none

/-- The slot the block table offers a record (R156): of a CURRENT block the next ordinary slot alone, for a CRITICAL record
too (log entry 69 on the end of R161). -/
def Archive.offers (a : Archive) (sev : Severity) : Option (Nat × Nat) :=
  match a.current with
  | some b => if (a.entry b).nextOrdinary < 126 then some (b, (a.entry b).nextOrdinary) else none
  | none =>
    if sev = .critical then
      match a.lastFull with
      | some b => if (a.entry b).nextReserved < 128 then some (b, (a.entry b).nextReserved) else none
      | none => none
    else none

/-- A missed record (R153, R154). -/
def Archive.miss (a : Archive) : Archive := { a with missed := satInc 65535 a.missed }

/-- Every record of the pending list is missed. -/
def Archive.missAll (a : Archive) : Archive :=
  a.pendingList.foldl (fun x _ => x.miss) { a with pendingList := [] }

/-- The state of the sequencer while a program runs: SUSPENDED when it holds an erase (R155, R161). -/
def Archive.programState (a : Archive) : SeqState := if a.erase.isSome then .suspended else .programming

/-- Begin the program of a record into a slot (R157): it takes the archive sequence, the power-on count and the missed
count, its bytes 28 to 30 are 0x00 (R200), and the slot counts as used at once. When the counter comes to its highest value
the records still waiting are missed (R153). -/
def Archive.begin (a : Archive) (c : ArchCopy) (block slot : Nat) : Archive :=
  let taken := a.setEntry block fun e =>
    if slot < 126 then { e with nextOrdinary := e.nextOrdinary + 1 } else { e with nextReserved := e.nextReserved + 1 }
  let started := { taken with
    program := some ⟨block, slot, ⟨a.sequence, a.powerOns, c, a.missed, [0#8, 0#8, 0#8]⟩, 1⟩
    sequence := satInc sequenceTop a.sequence
    missed := 0
    state := a.programState }
  if started.sequence = sequenceTop then started.missAll else started

/-- The oldest record of the pending list that satisfies `ok` and for which the table offers a slot, with the list
without it. -/
def Archive.pick (a : Archive) (ok : ArchCopy → Bool) : List ArchCopy → Option (ArchCopy × Nat × Nat × List ArchCopy)
  | [] => none
  | c :: rest =>
    match (if ok c then a.offers c.severity else none) with
    | some (b, k) => some (c, b, k, rest)
    | none => (a.pick ok rest).map fun (x, b, k, left) => (x, b, k, c :: left)

/-- Serve the pending list (R156, R161): a READY sequencer begins the oldest record for which a slot is available; a running erase
is suspended for the oldest CRITICAL one. The copy of POWER_LOSS so goes before all that come with it or after it (R185; log
entry 70). -/
def Archive.serve (a : Archive) : Archive :=
  let ok : Option (ArchCopy → Bool) := match a.state with
    | .ready => some fun _ => true
    | .erasing => some fun c => c.severity == .critical
    | _ => none
  match ok with
  | none => a
  | some f =>
    if a.sequence = sequenceTop then a else
    match a.pick f a.pendingList with
    | some (c, b, k, rest) => { a with pendingList := rest }.begin c b k
    | none => a

/-- The newest non-CRITICAL record leaves the list (R154). -/
def dropNewestMinor (l : List ArchCopy) : List ArchCopy :=
  (l.reverse.eraseP fun c => c.severity != .critical).reverse

/-- A record arrives at the pending list (R154; R159 for KEEP; R153 for a spent counter). -/
def Archive.arrive (a : Archive) (c : ArchCopy) : Archive :=
  let critical := c.severity == .critical
  if a.sequence = sequenceTop then a.miss
  else if a.mode = .keep ∧ a.current = none ∧ !critical then a.miss
  else if a.pendingList.length < 8 then { a with pendingList := a.pendingList ++ [c] }.serve
  else if critical && a.pendingList.any (fun x => x.severity != .critical) then
    { a.miss with pendingList := dropNewestMinor a.pendingList ++ [c] }.serve
  else a.miss

/-! ## Raising a notice (R141 to R147) -/

/-- The route of a class (R148). -/
def Notices.route (n : Notices) (c : NoticeClass) : Route := n.routes.getD c.code ⟨false, false⟩

/-- The entry that leaves a full queue for a notice of the given severity: of the lowest severity present below it, the
one placed earliest (R144). -/
def Notices.victim (n : Notices) (sev : Severity) : Option NoticeEntry :=
  n.queue.foldl (fun best e =>
    if e.notice.severity.code < sev.code then
      match best with
      | none => some e
      | some b =>
        if e.notice.severity.code < b.notice.severity.code ∨
          (e.notice.severity.code = b.notice.severity.code ∧ e.place < b.place) then some e else some b
    else best) none

/-- Make room for a notice of the given severity: the queue with room, or no queue when the notice is dropped. The lost
count grows when a notice is evicted or dropped (R144). -/
def Notices.makeRoom (n : Notices) (sev : Severity) : Notices × Bool :=
  if n.queue.length < 24 then (n, true)
  else
    match n.victim sev with
    | some v => ({ n with queue := n.queue.filter (·.place != v.place), lost := satInc 65535 n.lost }, true)
    | none => ({ n with lost := satInc 65535 n.lost }, false)

/-- The sequence numbers held in the notice queue, the overhead transmit queue and the home delivery buffer (R141). -/
def State.heldSequences (s : State) : List Nat :=
  s.notices.queue.map (·.notice.sequence) ++
  (s.overhead.queue.filterMap fun q => match q.msg with | .notice n => some n.sequence | _ => none) ++
  (s.data.buffer.filterMap fun f => match f.item with | .notice n => some n.sequence | _ => none)

/-- The next sequence number not held, counting from `v` (R141); `fuel` is one more than the numbers held. -/
def freeSequence (held : List Nat) : Nat → Nat → Nat
  | 0, v => v
  | fuel + 1, v => if v ∈ held then freeSequence held fuel ((v + 1) % 65536) else v

/-- Place a newly raised notice with its pending channels (R143, R144). -/
def placeNotice (cls : NoticeClass) (sev : Severity) (code : NoticeCode) (params : List Int) (home overhead : Bool)
    (s : State) : State :=
  let (n, ok) := s.notices.makeRoom sev
  if ok then
    let held := { s with notices := n }.heldSequences
    let seq := freeSequence held (held.length + 1) n.nextSequence
    let e : NoticeEntry :=
      ⟨⟨seq, cls, sev, code, s.time.uptime, s.time.cycleCount, params, n.lost⟩, home, overhead, n.nextPlace, none, none⟩
    { s with notices := { n with
        queue := n.queue ++ [e], nextSequence := (seq + 1) % 65536, lost := 0, nextPlace := n.nextPlace + 1 } }
  else { s with notices := n }

/-- The archive copy of a notice at or above the archive threshold (R147). -/
def copyToArchive (cls : NoticeClass) (sev : Severity) (code : NoticeCode) (params : List Int) (s : State) : State :=
  if s.notices.archiveThreshold.code ≤ sev.code then
    { s with archive := s.archive.arrive ⟨cls, sev, code, s.time.uptime, params⟩ }
  else s

/-- Raise a notice: its archive copy first, then its place in the queue for the channels its route names and whose master
enable is on (R143). -/
def raise (cls : NoticeClass) (sev : Severity) (code : NoticeCode) (params : List Int) (s : State) : State :=
  let s := copyToArchive cls sev code params s
  let r := s.notices.route cls
  let home := r.home && s.notices.homeEnable
  let overhead := r.operator && s.notices.operatorEnable
  if home || overhead then placeNotice cls sev code params home overhead s else s

/-- A channel of the Notice Unit: home, or overhead (section 8.3). -/
inductive Outlet where
  | home | overhead
  deriving DecidableEq, Repr

def NoticeEntry.pendingOn (e : NoticeEntry) : Outlet → Bool
  | .home => e.home
  | .overhead => e.overhead

def NoticeEntry.returnedBy (e : NoticeEntry) : Outlet → Option Nat
  | .home => e.homeReturn
  | .overhead => e.overheadReturn

/-- Whether entry `a` is handed over before `b` (R145): returned ones first in order of return, then the higher severity,
then the earlier placed. -/
def handedBefore (o : Outlet) (a b : NoticeEntry) : Bool :=
  match a.returnedBy o, b.returnedBy o with
  | some x, some y => x < y
  | some _, none => true
  | none, some _ => false
  | none, none =>
    b.notice.severity.code < a.notice.severity.code ||
      (a.notice.severity.code == b.notice.severity.code && a.place < b.place)

/-- The next notice for a channel (R145). -/
def Notices.next (n : Notices) (o : Outlet) : Option NoticeEntry :=
  n.queue.foldl (fun best e =>
    if e.pendingOn o then
      match best with
      | none => some e
      | some b => if handedBefore o e b then some e else some b
    else best) none

/-- The entry loses a pending channel. -/
def NoticeEntry.without (e : NoticeEntry) : Outlet → NoticeEntry
  | .home => { e with home := false, homeReturn := none }
  | .overhead => { e with overhead := false, overheadReturn := none }

/-- Entries with no pending channel leave the queue (R145, R148). -/
def Notices.prune (n : Notices) : Notices := { n with queue := n.queue.filter fun e => e.home || e.overhead }

/-- The notice at a place has been handed to a channel (R145). -/
def Notices.handed (n : Notices) (o : Outlet) (place : Nat) : Notices :=
  Notices.prune { n with queue := n.queue.map fun e => if e.place = place then e.without o else e }

/-- The entry regains a pending channel, marked as returned `k`-th (R146). -/
def NoticeEntry.back (e : NoticeEntry) (k : Nat) : Outlet → NoticeEntry
  | .home => { e with home := true, homeReturn := some k }
  | .overhead => { e with overhead := true, overheadReturn := some k }

/-- The master enable of a channel (R148). -/
def Notices.enabled (n : Notices) : Outlet → Bool
  | .home => n.homeEnable
  | .overhead => n.operatorEnable

/-- A notice comes back from a channel (R146). One that re-enters the queue takes the newest place in placement order
(log entry 41). -/
def returnNotice (o : Outlet) (x : Notice) (s : State) : State :=
  let n := s.notices
  if !n.enabled o then s
  else if n.queue.any (fun e => e.notice.sequence == x.sequence) then
    { s with notices := { n with
        queue := n.queue.map (fun e => if e.notice.sequence = x.sequence then e.back n.nextPlace o else e)
        nextPlace := n.nextPlace + 1 } }
  else
    let (n, ok) := n.makeRoom x.severity
    if ok then
      let e : NoticeEntry := ⟨x, false, false, n.nextPlace, none, none⟩
      { s with notices := { n with queue := n.queue ++ [e.back n.nextPlace o], nextPlace := n.nextPlace + 1 } }
    else { s with notices := n }

/-! ## Counting (R135, R138) -/

/-- Count one event of a counter; when it then stands at or above its non-zero threshold for the first time in the
interval it joins the crossings and THRESHOLD is raised (R138). A counter at 65535 is not incremented. -/
def count (c : Counter) (s : State) : State :=
  let i := c.index
  let v := s.perf.counters.getD i 0
  if v < 65535 then
    let t := s.perf.thresholds.getD i 0
    let counted := { s with perf.counters := s.perf.counters.set i (v + 1) }
    if t ≠ 0 ∧ t ≤ v + 1 ∧ s.perf.crossings.getD i false = false then
      raise .counter (if c = .ses ∨ c = .retrains then .major else .minor) .threshold
        [(i : Int) + 1, (t : Int), (s.perf.number : Int)]
        { counted with perf.crossings := s.perf.crossings.set i true }
    else counted
  else s

/-- Count one event `n` times. -/
def countMany (c : Counter) : Nat → State → State
  | 0, s => s
  | n + 1, s => countMany c n (count c s)

end Sys2Proof.Machine
end

