-- ==== Sys2Proof/Machine/Channels.lean ====
section
/-! DEFINITION. The two channels toward the partners: the overhead transmit queue and its arbiter (R12 to R15), the home
delivery buffer and the home transmitter (R129), flow pause (R126) and the response lists (R191). -/
namespace Sys2Proof.Machine

/-! ## The overhead transmit queue (R13, R14) -/

def overheadRoom (s : State) : Bool := s.overhead.queue.length < 16

/-- An entry at the tail of enqueue order. -/
def enqueueLast (m : Msg) (o : Overhead) : Overhead :=
  { o with queue := o.queue ++ [⟨o.nextPlace, m⟩], nextPlace := o.nextPlace + 1 }

/-- An entry "at the head of its class" (R13): it has the first place of the class and stands before every other entry of the
list, whose order decides between equal places (`arbiterChoice`). -/
def enqueueFirst (m : Msg) (o : Overhead) : Overhead :=
  let least := o.queue.foldl (fun p q => if q.msg.cls = m.cls ∧ q.place < p then q.place else p) o.nextPlace
  { o with queue := ⟨least, m⟩ :: o.queue }

/-- POWER_LOSS goes to the head of its class (R185), every other message to the tail. -/
def insertMsg (m : Msg) (o : Overhead) : Overhead :=
  match m with
  | .powerLoss _ => enqueueFirst m o
  | _ => enqueueLast m o

/-- The newest entry of class NOTICE or MANAGEMENT, by enqueue order over both classes together (R14). -/
def newestLow (q : List QueuedMsg) : Option QueuedMsg :=
  q.foldl (fun best e =>
    if e.msg.cls = .notice ∨ e.msg.cls = .management then
      match best with
      | none => some e
      | some b => if b.place < e.place then some e else some b
    else best) none

/-- The last response of the list that equals `r` and was taken is waiting again, in the room it held (R191): at the head of the
waiting responses (R14), but for an older one that R15 put back before (log entry 71). -/
def untake (r : Response) (l : List ListedResponse) : List ListedResponse :=
  match l.reverse.findIdx? (fun e => e.taken && e.response == r) with
  | some i => l.modify (l.length - 1 - i) fun e => { e with taken := false }
  | none => l

/-- An evicted or returned message goes back to its owner (R14, R15). -/
def giveBack (m : Msg) (s : State) : State :=
  match m with
  | .notice n => returnNotice .overhead n s
  | .response r => { s with mgmt.operator.responses := untake r s.mgmt.operator.responses }
  | _ => s

/-- A message waits in its owning block, oldest first (R14). A POWER_LOSS takes its place ahead of its class when it enters
the queue (R13, R185). -/
def waitOutside (m : Msg) (s : State) : State :=
  match m.cls with
  | .lineControl => { s with overhead.waitingLine := s.overhead.waitingLine ++ [m] }
  | _ => { s with overhead.waitingSignal := s.overhead.waitingSignal ++ [m] }

/-- No LINE_CONTROL or SIGNALLING message waits for room. -/
def noneWaiting (s : State) : Bool := s.overhead.waitingLine.isEmpty && s.overhead.waitingSignal.isEmpty

/-- A block offers a LINE_CONTROL or SIGNALLING message (R13, R14): refused outside SERVICE; otherwise taken, taken with an
eviction, or left waiting in its block. -/
def offer (m : Msg) (s : State) : State :=
  if s.line.state ≠ .service then s
  else if !noneWaiting s then waitOutside m s
  else if overheadRoom s then { s with overhead := insertMsg m s.overhead }
  else
    match newestLow s.overhead.queue with
    | some q =>
      giveBack q.msg
        { s with overhead := insertMsg m { s.overhead with queue := s.overhead.queue.erase q } }
    | none => waitOutside m s

/-- Remove the messages `p` picks from the queue and from those waiting for room. -/
def withdraw (p : Msg → Bool) (s : State) : State :=
  { s with
    overhead.queue := s.overhead.queue.filter (fun q => !p q.msg)
    overhead.waitingLine := s.overhead.waitingLine.filter (fun m => !p m)
    overhead.waitingSignal := s.overhead.waitingSignal.filter (fun m => !p m) }

/-- A message `p` picks has not begun transmission: it is in the queue or waiting for room. -/
def unsent (p : Msg → Bool) (s : State) : Bool :=
  s.overhead.queue.any (fun q => p q.msg) || s.overhead.waitingLine.any p || s.overhead.waitingSignal.any p

/-- The Management Unit's first waiting response for the overhead channel is taken (R14, R191). -/
def takeResponse (s : State) : Option State :=
  match s.mgmt.operator.responses.findIdx? (fun e => !e.taken) with
  | some i =>
    match s.mgmt.operator.responses[i]? with
    | some e =>
      some { s with
        overhead := enqueueLast (.response e.response) s.overhead
        mgmt.operator.responses := s.mgmt.operator.responses.set i { e with taken := true } }
    | none => none
  | none => none

/-- The Notice Unit's next notice for the overhead channel is taken (R14, R145: only in SERVICE). -/
def takeNotice (s : State) : Option State :=
  if s.line.state = .service then
    match s.notices.next .overhead with
    | some e =>
      some { s with
        overhead := enqueueLast (.notice e.notice) s.overhead
        notices := s.notices.handed .overhead e.place }
    | none => none
  else none

/-- One free room of the queue is filled, in the order of R14: waiting LINE_CONTROL messages, waiting SIGNALLING messages,
the first waiting response, the next notice. -/
def fillOne (s : State) : Option State :=
  if !overheadRoom s then none
  else
    match s.overhead.waitingLine, s.overhead.waitingSignal with
    | m :: rest, _ => some { s with overhead := insertMsg m { s.overhead with waitingLine := rest } }
    | [], m :: rest => some { s with overhead := insertMsg m { s.overhead with waitingSignal := rest } }
    | [], [] =>
      match takeResponse s with
      | some t => some t
      | none => takeNotice s

/-- The rooms of the queue are filled as long as there is room and something waits; the queue has 16 rooms. -/
def fillRooms : Nat → State → State
  | 0, s => s
  | fuel + 1, s =>
    match fillOne s with
    | some t => fillRooms fuel t
    | none => s

/-- The rank of a class, LINE_CONTROL first (R13). -/
def MsgClass.rank : MsgClass → Nat
  | .lineControl => 0
  | .signalling => 1
  | .notice => 2
  | .management => 3

/-- The entry the arbiter chooses: the highest class that has an entry, and in it the earliest in enqueue order (R13). -/
def arbiterChoice (q : List QueuedMsg) : Option QueuedMsg :=
  q.foldl (fun best e =>
    match best with
    | none => some e
    | some b =>
      if e.msg.cls.rank < b.msg.cls.rank ∨ (e.msg.cls.rank = b.msg.cls.rank ∧ e.place < b.place) then some e
      else some b) none

/-- The arbiter hands out a free overhead share: the chosen entry leaves the queue and becomes the message in transmission
(R13). -/
def arbitrate (s : State) : State :=
  match s.overhead.sending with
  | some _ => s
  | none =>
    match arbiterChoice s.overhead.queue with
    | some q =>
      { s with
        overhead.queue := s.overhead.queue.erase q
        overhead.sending := some ⟨q.place, q.msg, q.msg.bytes, s.time.cycleCount⟩ }
    | none => s

/-- R15: the overhead channel stops. LINE_CONTROL and SIGNALLING messages are discarded; a NOTICE or MANAGEMENT message in
transmission goes back to its place, or to its owner when the queue then holds 16. -/
def stopOverhead (s : State) : State :=
  let kept := s.overhead.queue.filter fun q => q.msg.cls = .notice ∨ q.msg.cls = .management
  let cleared := { s with overhead := { s.overhead with
    queue := kept, sending := none, waitingLine := [], waitingSignal := [], received := [] } }
  match s.overhead.sending with
  | some t =>
    if t.msg.cls = .notice ∨ t.msg.cls = .management then
      if kept.length < 16 then { cleared with overhead.queue := ⟨t.place, t.msg⟩ :: kept }
      else giveBack t.msg cleared
    else cleared
  | none => cleared

/-! ## The home link (R126, R129) -/

/-- The fill of a list of frames in bytes. -/
def fillOf (q : List (List Byte)) : Nat := q.foldl (fun n f => n + f.length) 0

def bufferFill (b : List HomeFrame) : Nat := b.foldl (fun n f => n + f.bytes.length) 0

/-- The type a pause frame carries (R126). -/
def linkControlType : Nat := 0x8808

/-- At a frame gap a due pause frame is sent first, and then the head of the buffer (R129). -/
def kickHome (s : State) : State :=
  if s.data.linkUp && s.data.tx == .idle then
    match s.data.pauseDue with
    | some p => { s with data := { s.data with tx := .pause linkControlType p, pauseDue := none } }
    | none => if s.data.buffer.isEmpty then s else { s with data.tx := .frame }
  else s

/-- A pause frame is due; "the later one replaces it" (R126). -/
def duePause (p : Pause) (s : State) : State := kickHome { s with data.pauseDue := some p }

/-- The flow-pause flag is judged at a change of the BULK fill (R126). -/
def judgeFlow (s : State) : State :=
  let fill := fillOf s.data.bulk
  if 10240 < fill ∧ !s.data.flowPause then
    if s.data.linkUp then
      duePause .longest { s with data := { s.data with flowPause := true, pauseTimer := some 10 } }
    else { s with data := { s.data with flowPause := true, pauseTimer := none } }
  else if fill < 6144 ∧ s.data.flowPause then
    let t := { s with data := { s.data with flowPause := false, pauseTimer := none } }
    if s.data.linkUp then duePause .zero t else t
  else s

/-- The buffer has room for a frame of this length, and takes frames at all (R129). -/
def bufferTakes (s : State) (len : Nat) : Bool := s.data.linkUp && bufferFill s.data.buffer + len ≤ 6144

/-- A frame enters the home delivery buffer at the tail. -/
def putHome (f : HomeFrame) (s : State) : State := kickHome { s with data.buffer := s.data.buffer ++ [f] }

/-- R130: a frame from the downstream byte stream enters the buffer, or is dropped and counted. -/
def deliverDown (content : List Byte) (s : State) : State :=
  if bufferTakes s content.length then putHome ⟨.data, content⟩ s else count .framesDropped s

/-- The part's own home link address (R195). -/
def ownAddress (s : State) : List Byte := [0x02#8, 0x55#8] ++ be32 s.mgmt.serial

/-- A management frame the part sends (R198): padded with zeros to 60 bytes, then the frame check sequence. -/
def homeFrame (s : State) (dest : List Byte) (kind : Byte) (content : List Byte) : List Byte :=
  let body := dest ++ ownAddress s ++ be16 s.data.managementType ++ [kind] ++ be16 content.length ++ content
  let padded := body ++ List.replicate (60 - body.length) 0#8
  padded ++ (List.range 4).map (Config.frameCheck padded)

def responseFrame (s : State) (r : Response) : HomeFrame := ⟨.response r, homeFrame s r.addr 0x42#8 r.bytes⟩

def noticeFrame (s : State) (n : Notice) : HomeFrame :=
  ⟨.notice n, homeFrame s (List.replicate 6 0xFF#8) 0x31#8 n.bytes⟩

/-- The head response of the home channel is offered to the buffer; while the link is DOWN it is discarded as it is
offered (R191). The list holds at most 8. -/
def offerHomeResponses : Nat → State → State
  | 0, s => s
  | fuel + 1, s =>
    match s.mgmt.home.responses with
    | [] => s
    | e :: rest =>
      let f := responseFrame s e.response
      if !s.data.linkUp then offerHomeResponses fuel { s with mgmt.home.responses := rest }
      else if bufferTakes s f.bytes.length then
        offerHomeResponses fuel (putHome f { s with mgmt.home.responses := rest })
      else s

/-- The Notice Unit's next notice for the home link is placed in the buffer when it has room (R129, R145). -/
def placeHomeNotice (s : State) : State :=
  match s.notices.next .home with
  | some e =>
    let f := noticeFrame s e.notice
    if bufferTakes s f.bytes.length then putHome f { s with notices := s.notices.handed .home e.place } else s
  | none => s

/-- Waiting responses of the operator channel are offered to the overhead queue while it has room and nothing of a higher
class waits (R191, R14). -/
def offerOverheadResponses : Nat → State → State
  | 0, s => s
  | fuel + 1, s =>
    if overheadRoom s && noneWaiting s then
      match takeResponse s with
      | some t => offerOverheadResponses fuel t
      | none => s
    else s

def State.chan (s : State) : Channel → Chan
  | .home => s.mgmt.home
  | .operator => s.mgmt.operator

/-- Change one management channel. -/
def onChan (ch : Channel) (f : Chan → Chan) (s : State) : State :=
  match ch with
  | .home => { s with mgmt.home := f s.mgmt.home }
  | .operator => { s with mgmt.operator := f s.mgmt.operator }

/-- A response joins its channel's list and is offered to the channel (R191). -/
def addResponse (ch : Channel) (r : Response) (s : State) : State :=
  let t := onChan ch (fun c => { c with responses := c.responses ++ [⟨r, false⟩] }) s
  match ch with
  | .home => offerHomeResponses 8 t
  | .operator => offerOverheadResponses 8 t

/-- A DONE of a RESTART has been sent on its channel (R194). -/
def restartDoneSent (r : Response) (s : State) : State :=
  match s.mgmt.restart with
  | some p => if r.ofRestart then { s with mgmt.restart := some { p with unsent := p.unsent - 1 } } else s
  | none => s

end Sys2Proof.Machine
end

