-- ==== Sys2Proof/Machine/Calls.lean ====
section
/-! DEFINITION. Shared operations of the ports and the voice slots: budget records (R6, R7), admission (R106, R107), seizure
and release (R109, R113), port state changes (R84 to R90), ring orders (R93 to R98), shedding (R115), and the effect of a
loss of SERVICE on both (R89, R114). -/
namespace Sys2Proof.Machine

/-! ## Budget records (R6, R7) -/

/-- The record for a bit total and a number of slots: D is floor((B − 8 − 16·v)/8), not below 0 (R6). -/
def budgetOf (b v : Nat) : Budget := ⟨b, v, (b - 8 - 16 * v) / 8, 8 + 16 * v + 8 * ((b - 8 - 16 * v) / 8)⟩

/-- The slots whose bits are in the layout (R7). -/
def Slots.laidOut (sl : Slots) : Nat := (if sl.s0.laid then 1 else 0) + (if sl.s1.laid then 1 else 0)

/-- Both records from the banks active and the slots laid out (R7). -/
def recompute (s : State) : State :=
  { s with
    framer.rx := budgetOf (bitTotal (s.tones.active .rx)) s.slots.laidOut
    framer.tx := budgetOf (bitTotal (s.tones.active .tx)) s.slots.laidOut }

/-- On leaving SERVICE v and D are set to 0 and B is kept (R7). -/
def Budget.stopped (b : Budget) : Budget := ⟨b.b, 0, 0, 8⟩

/-! ## Port state changes -/

/-- What entering a state other than SEIZING and CONNECTED leaves of a port's call, tone and ring (R83, R84, R88, R90,
R97); the skipped flag stays as it stands. -/
def PortRec.settled (r : PortRec) : PortRec :=
  { r with
    refusal := none
    pulses := 0
    make := none
    digits := []
    slot := none
    order := none
    cadence := none
    unitHeld := false
    ringTimer := none
    toneTimer := none
    wakeMark := false
    heldRequest := false }

def PortRec.toIdle (r : PortRec) : PortRec := { r.settled with state := .idle }

/-- R90: the tone timer is loaded with 6000 cycles. -/
def PortRec.toRefused (why : Refused) (r : PortRec) : PortRec :=
  { r.settled with state := .refused, refusal := some why, toneTimer := some 6000 }

/-- R90. -/
def PortRec.toNoService (r : PortRec) : PortRec := { r.settled with state := .noService, toneTimer := some 6000 }

def PortRec.toSilent (r : PortRec) : PortRec := { r.settled with state := .silent }

/-- R100: entry to DISABLED. The skipped flag goes with the ring order, and is cleared also where a ring trip left it on a port
in no ring order, which R100 does not name (log entry 56). -/
def PortRec.toDisabled (r : PortRec) : PortRec := { r.settled with state := .disabled, skipped := false }

def PortRec.toTesting (r : PortRec) : PortRec := { r.settled with state := .testing }

/-- "off-hook in the sense of the rest of this manual when its loop state is OFF_HOOK or BREAK" (R85). -/
def PortRec.offHook (r : PortRec) : Bool := r.loop != .onHook

/-! ## Admission (R106, R107) -/

/-- "8 + 16·(v + 1) is at most B" for a bank. -/
def fitsOneMore (v : Nat) (bank : List ToneRec) : Bool := 8 + 16 * (v + 1) ≤ bitTotal bank

/-- The six conditions of R106. -/
def admissible (s : State) : Bool :=
  let v := s.slots.inUse
  s.line.state == .service
    && (s.slots.s0.isFree || s.slots.s1.isFree)
    && (s.supply.state == .full || (s.supply.state == .hold && s.slots.allFree))
    && fitsOneMore v (s.tones.active .rx) && fitsOneMore v (s.tones.active .tx)
    && (!(s.shifts.rx.phase == .offered || s.shifts.rx.phase == .agreed) || fitsOneMore v (s.tones.standby .rx))
    && (!s.shifts.tx.isSome || fitsOneMore v (s.tones.standby .tx))

/-- "the lowest-numbered FREE slot" (R107). -/
def lowestFree (s : State) : Slot := if s.slots.s0.isFree then .s0 else .s1

/-- R107: the slot becomes RESERVED and the mark moves to it; CALLS_ADMITTED is counted. -/
def grant (use : SlotUse) (party : SlotParty) (order : Option Nat) (s : State) : State :=
  let k := lowestFree s
  let n := (s.slots.admissions + 1) % 65536
  let t := onSlot k (fun r =>
    { SlotRec.free r.stale with
      state := .reserved, use := some use, party := party, order := order, number := n
      admittedAt := s.time.uptime, wait := if use = .outgoing then some 100 else none }) s
  count .callsAdmitted { t with slots.admissions := n, slots.newest := some k }

/-- An OUTGOING admission of a port is judged (R86, R106, R107, R109). -/
def admitPort (p : Port) (s : State) : State :=
  if admissible s then
    let k := lowestFree s
    offer (.seize p k)
      (onPort p (fun r => { r with state := .seizing, slot := some k, heldRequest := false })
        (grant .outgoing (.port p) none s))
  else onPort p (PortRec.toRefused .capacity) (count .callsLost s)

/-- A request for an OUTGOING use; held while the RX rate shift is in PASS (R106). -/
def requestCall (p : Port) (s : State) : State :=
  if s.shifts.rx.phase = .pass then onPort p (fun r => { r with state := .seizing, slot := none, heldRequest := true }) s
  else admitPort p s

/-- A held request is judged against the phase that follows the pass (R106). -/
def judgeHeld (p : Port) (s : State) : State := if (s.port p).heldRequest then admitPort p s else s

/-! ## Wakes (R186) -/

/-- A wake taken in DORMANT with no settle period running (R186). -/
def takeWake (why : WakeReason) (s : State) : State :=
  if s.supply.state = .dormant ∧ s.supply.settle = none then
    { s with supply := { s.supply with wakeReason := why, settle := some 100 } }
  else s

def batteryCarries (b : Battery) : Bool := b == .good || b == .low

def WakeSet.port (w : WakeSet) : Port → Bool
  | .p1 => w.port1
  | .p2 => w.port2

def portReason : Port → WakeReason
  | .p1 => .port1
  | .p2 => .port2

/-- An off-hook reported as a wake while the supply is DORMANT and the port's source is on (R86, R89, R186). -/
def reportPortWake (p : Port) (s : State) : State :=
  if s.supply.state = .dormant ∧ s.supply.wakeSet.port p then
    let t := onPort p (fun r => { r with wakeMark := true }) s
    if batteryCarries s.supply.battery then takeWake (portReason p) t else t
  else s

/-- An off-hook in IDLE (R86). -/
def offHookInIdle (p : Port) (s : State) : State :=
  if s.line.state = .service then requestCall p s
  else reportPortWake p (onPort p PortRec.toNoService s)

/-- A port that enters IDLE with its loop off-hook has that taken as an off-hook in IDLE (R99). -/
def idleThenLoop (p : Port) (s : State) : State :=
  let t := onPort p PortRec.toIdle s
  if (t.port p).offHook then offHookInIdle p t else t

/-! ## Release (R109, R113) -/

/-- The slot is not FREE and not released. -/
def SlotRec.live (r : SlotRec) : Bool := !r.isFree && !r.released

/-- The slot is released; it becomes FREE at the next cycle boundary (R105). Its seizure wait stops at the release (log entry
57). -/
def markReleased (k : Slot) (s : State) : State := onSlot k (fun r => { r with released := true, wait := none }) s

/-- The message is the SEIZE of a slot. -/
def isSeize (k : Slot) : Msg → Bool
  | .seize _ j => j == k
  | _ => false

/-- The seizure wait of the slot is running (R109). -/
def SlotRec.seizing (r : SlotRec) : Bool := r.state == .reserved && r.use == some .outgoing && r.wait.isSome

/-- A release the part causes (R113): RELEASE with the reason, unless the slot's SEIZE has not begun transmission, when it
is removed and nothing is sent; a SEIZE begun leaves an answer to come (R109). An older SEIZE of the slot that is still unsent is
removed with it (log entry 76). -/
def releaseWith (k : Slot) (why : ReleaseReason) (s : State) : State :=
  let r := s.slot k
  if !r.live then s
  else if r.seizing then
    if unsent (isSeize k) s then markReleased k (withdraw (isSeize k) s)
    else
      offer (.release k why) (markReleased k (onSlot k (fun x => { x with stale := satInc 15 x.stale }) s))
  else offer (.release k why) (markReleased k s)

/-- The port goes on-hook (R82, R87, R88, R90). A TESTING or DISABLED port acts on nothing (R99). -/
def portOnHook (p : Port) (s : State) : State :=
  let r := s.port p
  match r.state with
  | .testing | .disabled | .ringing => s
  | .seizing | .connected =>
    let t := match r.slot with
      | some k => releaseWith k .onHook s
      | none => s
    onPort p PortRec.toIdle t
  | .refused | .noService | .silent | .idle => onPort p PortRec.toIdle s

/-! ## Digits (R83, R84) -/

/-- A digit or flash is handed to the port state (R84). -/
def handItem (p : Port) (x : DialItem) (s : State) : State :=
  match (s.port p).state with
  | .connected =>
    offer (match x with
      | .digit d => .digit p d
      | .flash => .flash p) s
  | .seizing =>
    onPort p (fun r =>
      if r.digits.length < 16 then { r with digits := r.digits ++ [x] }
      else { r with dialErrors := satInc 255 r.dialErrors }) s
  | _ => s

/-- The digit being dialled is complete (R83). -/
def completeDigit (p : Port) (s : State) : State :=
  let n := (s.port p).pulses
  let t := onPort p (fun r => { r with pulses := 0, make := none }) s
  if n = 0 then t
  else if n ≤ 10 then handItem p (.digit (n % 10)) (onPort p (fun r => { r with lastDigit := some (n % 10) }) t)
  else onPort p (fun r => { r with dialErrors := satInc 255 r.dialErrors }) t

/-- The buffered items are sent in order as the port enters CONNECTED from SEIZING (R84). -/
def sendDigits (p : Port) : List DialItem → State → State
  | [], s => s
  | x :: rest, s => sendDigits p rest (handItem p x s)

/-! ## Ring orders (R93 to R98, R112) -/

/-- The slot serves a ring order not yet answered (R112). -/
def SlotRec.ringing (r : SlotRec) : Bool := r.live && r.use == some .ring && r.state == .reserved

/-- The slot of the ring order in progress with this id: a RING slot not yet released (R111). -/
def orderSlot (s : State) (order : Nat) : Option Slot :=
  if s.slots.s0.live && s.slots.s0.use == some .ring && s.slots.s0.order == some order then some .s0
  else if s.slots.s1.live && s.slots.s1.use == some .ring && s.slots.s1.order == some order then some .s1
  else none

/-- A port of an order ended without an answer: to IDLE, its unit returned, its skipped flag cleared (R98). -/
def endRinging (k : Slot) (r : PortRec) : PortRec :=
  if r.state = .ringing ∧ r.slot = some k then { r.toIdle with skipped := false } else r

/-- The order of a slot ends without an answer: its ports enter IDLE and the slot is released (R98). The slot counts as in
use until its boundary, so the dormancy condition of R183 is first judged there. -/
def endOrder (k : Slot) (s : State) : State := markReleased k (onPorts (endRinging k) s)

/-- An off-hook on a RINGING port answers the order that its slot serves (R97, R112). -/
def ringTrip (p : Port) (s : State) : State :=
  let r := s.port p
  match r.slot, r.order with
  | some k, some o =>
    if !(s.slot k).ringing then s else
    let t := onSlot k (fun x =>
      { x with state := .active, party := .port p, last := some (Config.idleCode, Config.idleCode), concealed := 0 }) s
    let t := onPort p (fun x => { x.settled with state := .connected, slot := some k }) t
    let q := otherPort p
    let t := if (t.port q).state = .ringing ∧ (t.port q).slot = some k then onPort q PortRec.toIdle t else t
    offer (.answer o p k) t
  | _, _ => s

/-- The named cadence entry (R92). -/
def cadenceEntry (s : State) (i : Nat) : List (Nat × Nat) := s.handset.cadences.getD i []

/-- The ring limit of an order: the port's own, or the longer of both (R93). -/
def orderRingLimit (s : State) : PortSet → Nat
  | .one => s.handset.p1.timing.ring
  | .two => s.handset.p2.timing.ring
  | .both => max s.handset.p1.timing.ring s.handset.p2.timing.ring

/-- A named port enters RINGING (R93). -/
def startRinging (k : Slot) (order limit : Nat) (pairs : List (Nat × Nat)) (r : PortRec) : PortRec :=
  { r.settled with
    state := .ringing
    slot := some k
    order := some order
    cadence := some ⟨pairs, 0, true, none⟩
    skipped := false
    ringTimer := some (100 * limit) }

/-- The interval in cycles of the present phase of a cadence (R92, R94: units of 50 ms are 5 cycles). -/
def Cadence.interval (c : Cadence) : Nat :=
  let p := c.pairs.getD c.pair (1, 1)
  5 * (if c.on then p.1 else p.2)

/-- The next phase: OFF after ON, ON of the next pair after OFF, from pair 1 again after the last (R94). -/
def Cadence.advance (c : Cadence) : Cadence :=
  let n : Cadence :=
    if c.on then { c with on := false }
    else { c with on := true, pair := if c.pair + 1 < c.pairs.length then c.pair + 1 else 0 }
  { n with timer := some n.interval }

/-- The number of ring allowance units held (R95). -/
def unitsHeld (s : State) : Nat := (if s.handset.p1.unitHeld then 1 else 0) + (if s.handset.p2.unitHeld then 1 else 0)

/-- The grant of R95: which of the ports starting on-phases get a unit, judged on the skipped flags as they stand. -/
def granted (free : Nat) (start1 start2 skip1 skip2 : Bool) : Bool × Bool :=
  match start1, start2 with
  | false, false => (false, false)
  | true, false => (1 ≤ free, false)
  | false, true => (false, 1 ≤ free)
  | true, true =>
    if 2 ≤ free then (true, true)
    else if free = 1 then (if skip2 && !skip1 then (false, true) else (true, false))
    else (false, false)

/-- A port at the start of an on-phase, with or without a unit (R94). -/
def PortRec.onPhase (got : Bool) (r : PortRec) : PortRec := { r with unitHeld := got, skipped := !got }

/-- The ports whose on-phases start at this boundary ask for units and are granted or skipped (R94, R95). -/
def grantUnits (start1 start2 : Bool) (s : State) : State :=
  let g := granted (s.handset.allowance - unitsHeld s) start1 start2 s.handset.p1.skipped s.handset.p2.skipped
  let t := if start1 then onPort .p1 (PortRec.onPhase g.1) s else s
  if start2 then onPort .p2 (PortRec.onPhase g.2) t else t

/-- The port's first on-phase has not begun (R93). -/
def PortRec.ringStartDue (r : PortRec) : Bool :=
  match r.state, r.cadence with
  | .ringing, some c => c.timer == none
  | _, _ => false

/-- The port's phase timer has reached 0 (R94). -/
def PortRec.phaseEndDue (r : PortRec) : Bool :=
  match r.state, r.cadence with
  | .ringing, some c => c.timer == some 0
  | _, _ => false

/-- The cadence begins: the timer of its first on-phase is loaded (R93, R94). -/
def PortRec.firstPhase (r : PortRec) : PortRec :=
  match r.cadence with
  | some c => if r.ringStartDue then { r with cadence := some { c with timer := some c.interval } } else r
  | none => r

/-- The cadence moves to its next phase; a unit held at the end of an on-phase is returned (R94). -/
def PortRec.nextPhase (r : PortRec) : PortRec :=
  match r.cadence with
  | some c =>
    if r.phaseEndDue then { r with cadence := some c.advance, unitHeld := if c.on then false else r.unitHeld } else r
  | none => r

/-- The phase that `nextPhase` begins is an on-phase. -/
def PortRec.onPhaseDue (r : PortRec) : Bool :=
  r.phaseEndDue && (match r.cadence with | some c => !c.on | none => false)

/-- Every phase that ends at this boundary gives way to the next, the on-phases of both ports judged together (R94, R95). -/
def endPhases (s : State) : State :=
  grantUnits s.handset.p1.onPhaseDue s.handset.p2.onPhaseDue (onPorts PortRec.nextPhase s)

/-- The port begins an on-phase at this boundary, the first of its order or a later one. -/
def PortRec.onPhaseHere (r : PortRec) : Bool := r.ringStartDue || r.onPhaseDue

/-- A boundary at which an order's first on-phase begins: it and every phase that ends there, the on-phases of both ports
judged together (R93, R94, R95). -/
def beginPhases (s : State) : State :=
  grantUnits s.handset.p1.onPhaseHere s.handset.p2.onPhaseHere (onPorts (fun r => r.nextPhase.firstPhase) s)

/-- A change of the ring allowance; when it falls below the units held, units are returned at once, port 2's first
(R96). A port that loses its unit shows its on-phase as skipped. -/
def setAllowance (n : Nat) (s : State) : State :=
  let s := { s with handset.allowance := n }
  let drop (p : Port) (s : State) : State :=
    if n < unitsHeld s ∧ (s.port p).unitHeld then onPort p (fun r => { r with unitHeld := false, skipped := true }) s else s
  drop .p1 (drop .p2 s)

/-! ## Local tones (R85, R90, R91) -/

/-- The idle code in both samples (R5). -/
def idlePair : Byte × Byte := (Config.idleCode, Config.idleCode)

/-- The pair a local tone gives at the `n`-th symbol of a cycle: on and off parts of 25 cycles for the refusal tone and of
100 for the no-service tone, from the start of the tone, whose timer was loaded with 6000 cycles (R90, R91). The parts are counted
by the tone timer, and so end at cycle boundaries: of a tone that starts inside a cycle the first on part is shorter by the
symbols of that cycle already past (log entry 78). -/
def tonePair (kind part n : Nat) (r : PortRec) : Byte × Byte :=
  let sinceStart := 6000 - r.toneTimer.getD 0
  if sinceStart / part % 2 = 0 then Config.toneSamples kind (40 * sinceStart + n) else idlePair

/-- What a port's codec receives at the `n`-th symbol of a cycle when no slot gives it samples (R85, R117). -/
def localPair (n : Nat) (r : PortRec) : Byte × Byte :=
  match r.state with
  | .refused => tonePair 0 25 n r
  | .noService => tonePair 1 100 n r
  | _ => idlePair

/-- Every port's codec receives its local samples of a symbol (R85, R91). -/
def localVoice (s : State) : State := onPorts (fun r => { r with codec := [localPair s.time.symbolNo r] }) s

/-- The symbols of the cycle that have not been received. -/
def Time.symbolsLeft (t : Time) : List Nat := (List.range 40).drop t.symbolNo

/-- Every port's codec receives its local samples for the rest of the cycle: with those of the symbols received 80 in each
cycle, "at 8000 samples per second" (R91). -/
def restOfVoice (s : State) : State :=
  if s.time.symbolsLeft = [] then s
  else onPorts (fun r => { r with codec := s.time.symbolsLeft.map fun n => localPair n r }) s

/-! ## Shedding (R115) -/

/-- The slot to shed: the newest when it is not released, otherwise the other non-FREE slot that is not released. -/
def shedChoice (s : State) : Option Slot :=
  match s.slots.newest with
  | some k =>
    if (s.slot k).live then some k else if (s.slot (otherSlot k)).live then some (otherSlot k) else none
  | none => none

/-- The port or port set of a slot as a notice carries it: 1, 2, or 3 for both (R142, R199). -/
def SlotParty.code : SlotParty → Nat
  | .none => 0
  | .port p => p.index
  | .set ps => ps.code

/-- One slot is shed at the Loading Unit's request; nothing happens when every non-FREE slot is already released or no slot
is in use (R115). -/
def shed (s : State) : State :=
  match shedChoice s with
  | none => s
  | some k =>
    let r := s.slot k
    let t := releaseWith k .capacity s
    let t := if r.ringing then endOrder k t
      else match r.party with
        | .port p => onPort p (PortRec.toRefused .shed) t
        | _ => t
    raise .phone .major .callShed [(k.index : Int), (r.party.code : Int), (r.number : Int)] (count .callsLost t)

/-! ## Boundaries and losses -/

/-- A released slot becomes FREE and keeps only its stale answers (R105); a non-FREE slot is in the layout from this
boundary (R7). -/
def SlotRec.atBoundary (r : SlotRec) : SlotRec :=
  if r.released then SlotRec.free r.stale else { r with laid := !r.isFree }

/-- The newest-slot mark after slots have become FREE (R104). -/
def movedMark (sl : Slots) : Option Slot :=
  match sl.newest with
  | some .s0 => if !sl.s0.isFree then some .s0 else if !sl.s1.isFree then some .s1 else none
  | some .s1 => if !sl.s1.isFree then some .s1 else if !sl.s0.isFree then some .s0 else none
  | none => none

/-- The slot table at a cycle boundary (R105). -/
def freeReleased (s : State) : State :=
  let sl := { s.slots with s0 := s.slots.s0.atBoundary, s1 := s.slots.s1.atBoundary }
  { s with slots := { sl with newest := movedMark sl } }

/-- A slot becomes FREE at this boundary. -/
def someReleased (s : State) : Bool := s.slots.s0.released || s.slots.s1.released

/-- Every slot becomes FREE at once, without messages (R114). -/
def freeAllSlots (s : State) : State :=
  { s with slots := { s.slots with s0 := SlotRec.free 0, s1 := SlotRec.free 0, newest := none } }

/-- A port as the line leaves SERVICE (R89, R98). -/
def PortRec.lineLost (r : PortRec) : PortRec :=
  match r.state with
  | .seizing | .connected | .refused => r.toNoService
  | .ringing => { r.toIdle with skipped := false }
  | _ => r

end Sys2Proof.Machine
end

