-- ==== Sys2Proof/Machine/Flags.lean ====
section
/-! DEFINITION. The judgments the part makes: of a second (R134), of a cycle and a symbol (R52, R67), of a test value
(R168, R169), of a received bank (R37, R48, R61), of the dormancy condition (R183), of a margin order (R25, R178). -/
namespace Sys2Proof.Machine

/-! ## Seconds (R134) -/

/-- Severely errored: "outside impulses ≥ 40, or failures ≥ 20, or no signal is yes". -/
def severeSecond (p : Perf) : Bool := 40 ≤ p.outside || 20 ≤ p.failures || p.noSignal

/-- Errored: "failures ≥ 1, or outside impulses ≥ 1, or the second is SES". -/
def erroredSecond (p : Perf) : Bool := 1 ≤ p.failures || 1 ≤ p.outside || severeSecond p

/-- The second record is emptied (R133). -/
def emptySecond (s : State) : State :=
  { s with perf := { s.perf with failures := 0, outside := 0, noSignal := false, serviceCycles := 0 } }

/-- The second is classified, counted and its record emptied (R134); ES is counted before SES (log entry 58). -/
def classifySecond (s : State) : State :=
  let severe := severeSecond s.perf
  let errored := erroredSecond s.perf
  let t := emptySecond s
  let t := if errored then count .es t else t
  if severe then count .ses t else t

/-! ## Cycles and symbols (R52, R67) -/

/-- A no-signal cycle: "below one sixteenth of the nominal received energy" (R52). -/
def noSignalCycle (energy nominal : Nat) : Bool := 16 * energy < nominal

/-- The number of loaded tones of the active RX bank. -/
def loadedTones (bank : List ToneRec) : Nat := bank.countP fun r => 0 < r.bits

/-- The number of loaded tones whose decision error is above its limit: the measured ratio is below T[b] − C (R67).
A tone the measurement does not list is not above its limit (log entry 5). -/
def tonesAboveLimit (t : List Nat) (credit : Nat) : List ToneRec → List Int → Nat
  | [], _ => 0
  | _, [] => 0
  | r :: bank, x :: ratios =>
    (if 0 < r.bits ∧ x < (threshold t r.bits : Int) - credit then 1 else 0) + tonesAboveLimit t credit bank ratios

/-- "at least one quarter of the number of loaded tones, rounded up" (R67). With no loaded tone the quarter is 0. -/
def impulseSymbol (s : State) (ratios : List Int) : Bool :=
  let bank := s.tones.active .rx
  (loadedTones bank + 3) / 4 ≤ tonesAboveLimit s.tones.thresholds s.tones.credit bank ratios

/-! ## Test values (R168, R169) -/

/-- The value a test forms from what its circuits measured, saturated to its range (R168). -/
def testValue (t : TestType) (m : Measurement) : Int :=
  match t with
  | .lineVoltage => clamp (-200) 200 (if (m.acVolts : Int) ≤ m.dcVolts.natAbs then m.dcVolts else m.acVolts)
  | .lineInsulation => min (min m.wireAOhms m.wireBOhms) 10000
  | .lineLoop =>
    match m.loopOhms with
    | some r => min r 9998
    | none => 9999
  | .portRinger => min m.ringerLoad 60
  | .portLeak => min m.leakOhms 10000

/-- The verdict of a value against the limits in force (R169). -/
def verdictOf (t : TestType) (l : Limits) (v : Int) : Verdict :=
  match t with
  | .lineVoltage => if l.fail ≤ v.natAbs then .fail else if l.warn ≤ v.natAbs then .warn else .pass
  | .lineInsulation => if v < l.fail then .fail else if v < l.warn then .warn else .pass
  | .lineLoop => if v ≤ l.fail ∨ v = 9999 then .fail else if (l.warn : Int) < v then .warn else .pass
  | .portRinger => if (l.fail : Int) < v then .fail else if v ≤ l.warn then .warn else .pass
  | .portLeak => if v < l.fail then .fail else .pass

/-- The severity of a TEST_RESULT (R142, R174). -/
def resultSeverity (t : TestType) : Verdict → Severity
  | .fail => if t = .lineVoltage then .critical else .major
  | .warn => .minor
  | _ => .info

/-- The top of a test's limit range (R178). -/
def limitTop : TestType → Nat
  | .lineVoltage => 200
  | .lineInsulation => 10000
  | .lineLoop => 9999
  | .portRinger => 60
  | .portLeak => 10000

/-- The order a limit pair keeps (R169). -/
def limitsOrdered (t : TestType) (warn fail : Nat) : Bool :=
  match t with
  | .lineVoltage => warn ≤ fail
  | .lineInsulation => fail ≤ warn
  | .lineLoop => fail < warn
  | .portRinger => warn < fail
  | .portLeak => true

/-- A test's duration in cycles (R168). -/
def testDuration : TestType → Nat
  | .lineVoltage => 100
  | .lineInsulation => 300
  | .lineLoop => 200
  | .portRinger => 200
  | .portLeak => 100

/-- A test whose target is the line (R168). -/
def lineTest : TestType → Bool
  | .lineVoltage | .lineInsulation | .lineLoop => true
  | .portRinger | .portLeak => false

/-! ## Banks received from the exchange unit (R37, R48, R61) -/

/-- A bits value a record may hold: "0 or 2..12" (R17). -/
def legalBits (b : Nat) : Bool := b == 0 || (2 ≤ b && b ≤ 12)

/-- "within the tone's cap, and 0 on a MASKED tone" (R37, R48, R61). -/
def bitsAllowed (settings : List ToneSetting) (tone bits : Nat) : Bool :=
  let c := settingAt .tx settings tone
  legalBits bits && bits ≤ c.cap && (c.state == .active || bits == 0)

def legalGain (g : Int) : Bool := -10 ≤ g && g ≤ 10

/-- The bits of a TX table are allowed tone by tone from tone 6. -/
def bankBitsAllowed (settings : List ToneSetting) (tones : List (Nat × Int)) : Bool :=
  (List.range tones.length).all fun i => bitsAllowed settings (6 + i) (tones.getD i (0, 0)).1

def toBank (tones : List (Nat × Int)) : List ToneRec := tones.map fun t => ⟨t.1, t.2⟩

/-- "one entry for every tone 6..31 and none outside" (R61). -/
def coversTx (first : Nat) (tones : List (Nat × Int)) : Bool := first == 6 && tones.length == 26

/-! ## Margins, thresholds, timing -/

/-- "R ≤ D < M < U" (R25). -/
def marginsOrdered (r d m u : Nat) : Bool := r ≤ d && d < m && m < u

/-- "each entry is greater than the one before it" (R24). -/
def rising : List Nat → Bool
  | a :: b :: rest => a < b && rising (b :: rest)
  | _ => true

/-- A valid threshold table: eleven entries in 0..255, rising (R24). -/
def validThresholds (t : List Nat) : Bool := t.length == 11 && t.all (· ≤ 255) && rising t

/-! ## Dormancy (R183) -/

/-- The dormancy condition in HOLD: battery LOW, both slots FREE, no port RINGING, no wake window running. -/
def dormancyHolds (s : State) : Bool :=
  s.supply.state == .hold && s.supply.battery == .low && s.slots.allFree
    && s.handset.p1.state != .ringing && s.handset.p2.state != .ringing && s.supply.wakeWindow == none

/-- The tone ceiling: 255 in FULL, the hold ceiling in HOLD (R26). -/
def toneCeiling (s : State) : Nat := if s.supply.state = .hold then s.tones.holdCeiling else 255

end Sys2Proof.Machine
end

