-- ==== Sys2Proof/Machine/Loading.lean ====
section
/-! DEFINITION. The computations that fill and mend the RX banks: measured SNR (R21 to R23), the loading pass (R27 to R31),
tone margins (R32), and the evaluation of a tone swap (R33 to R35). -/
namespace Sys2Proof.Machine

/-! ## Measured SNR (R21 to R23) -/

/-- S after a sample: the first of PROBE sets it, later ones move it by floor((X − S + 4)/8) (R22); the sample is saturated
to 0..255 (R21). -/
def sampled (first : Bool) (s : Nat) (x : Int) : Nat :=
  let x := clamp 0 255 x
  if first then x.toNat else clampNat 0 255 ((s : Int) + (x - s + 4) / 8)

/-- Every RX tone takes its sample; a tone the samples do not list keeps S (log entry 5). -/
def takeSamples (first : Bool) : List Meas → List Int → List Meas
  | [], _ => []
  | ms, [] => ms
  | m :: ms, x :: xs => { m with s := sampled first m.s x } :: takeSamples first ms xs

/-- S follows a change of gain: S + (new gain − old gain), clamped to 0..255 (R23). -/
def followGains : List Meas → List Int → List Int → List Meas
  | m :: ms, old :: olds, new :: news =>
    { m with s := clampNat 0 255 ((m.s : Int) + (new - old)) } :: followGains ms olds news
  | ms, _, _ => ms

def gainsOf (bank : List ToneRec) : List Int := bank.map (·.gain)

/-! ## The loading pass (R28 to R31) -/

/-- "b_i is the largest b in 2..12 with T[b] ≤ E_i and b ≤ cap_i", searched from `b` down; 0 when there is none. -/
def largestBits (t : List Nat) (cap : Nat) (e : Int) : Nat → Nat
  | 0 => 0
  | b + 1 =>
    if 2 ≤ b + 1 ∧ b + 1 ≤ cap ∧ (threshold t (b + 1) : Int) ≤ e then b + 1 else largestBits t cap e b

/-- The five steps of R28 for one tone: its record from its zero-gain SNR, setting and index. -/
def loadTone (p : Pass) (mPass tone : Nat) (s0 : Int) (c : ToneSetting) : ToneRec :=
  let e := s0 + p.credit - mPass
  let b := if c.state = .active ∧ tone ≤ p.ceiling then largestBits p.thresholds c.cap e 12 else 0
  if b = 0 then ⟨0, 0⟩ else ⟨b, -(min (e - (threshold p.thresholds b : Int)) 10)⟩

/-- One full pass over all RX tones at a given M_pass. -/
def loadBank (p : Pass) (mPass : Nat) : Nat → List Int → List ToneSetting → List ToneRec
  | tone, s0 :: rest, c :: cs => loadTone p mPass tone s0 c :: loadBank p mPass (tone + 1) rest cs
  | _, _, _ => []

/-- The passes of one request at a voice floor: M_pass is lowered by 4, not below R, until the floor of 8 + 16·v_floor bits
is met or a pass at R falls short (R30). Gives whether it is met, the bank, and M_pass. `fuel` bounds the number of passes
(M is at most 63). -/
def lowerPasses (p : Pass) (vFloor : Nat) : Nat → Nat → Bool × List ToneRec × Nat
  | 0, m => (false, loadBank p m 33 p.s0 p.settings, m)
  | fuel + 1, m =>
    let bank := loadBank p m 33 p.s0 p.settings
    if 8 + 16 * vFloor ≤ bitTotal bank then (true, bank, m)
    else if m ≤ p.r then (false, bank, m)
    else lowerPasses p vFloor fuel (max (m - 4) p.r)

/-- What a pass hands to Line Control when it ends (R27): MET or SHORT, the bank written with its B, the M_pass that stands,
and the number of slots shed. -/
structure PassResult where
  met : Bool
  bank : List ToneRec
  newB : Nat
  mPass : Nat
  shed : Nat
  deriving DecidableEq, Repr

/-- The result of the passes at one voice floor, after `n` slots have been shed. -/
def passResult (p : Pass) (vFloor n : Nat) : PassResult :=
  let r := lowerPasses p vFloor 20 p.m
  ⟨r.1, r.2.1, bitTotal r.2.1, r.2.2, n⟩

/-- The rounds of a request at a voice floor, after `n` slots have been shed: a rate-shift pass short at R sheds a slot,
which leaves v_floor at once, and starts again from M; a training pass short at R, or a pass with v_floor 0, ends SHORT
(R31). -/
def passRounds (p : Pass) (n : Nat) : Nat → State → State × PassResult
  | 0, s => (s, passResult p 0 n)
  | v + 1, s =>
    if (passResult p (v + 1) n).met || p.training then (s, passResult p (v + 1) n) else passRounds p (n + 1) v (shed s)

/-- The inputs of a pass as they stand when it starts (R27). -/
def passInputs (training : Bool) (s : State) : Pass where
  training := training
  s0 := if training then s.tones.meas.map (fun m => (m.s : Int))
    else (s.tones.meas.zip (s.tones.active .rx)).map fun e => (e.1.s : Int) - e.2.gain
  settings := s.tones.rxSet
  thresholds := s.tones.thresholds
  credit := s.tones.credit
  m := s.tones.margins.m
  r := s.tones.margins.r
  ceiling := toneCeiling s
  holdCeiling := s.supply.state == .hold
  vFloor := if training then max 1 s.slots.inUse else s.slots.inUse
  bank := if training then .a else otherBank s.tones.rxActive
  ignored := false

/-- A request for a pass; one that comes while a pass is running waits (R27). -/
def requestPass (training : Bool) (s : State) : State :=
  match s.loader.running with
  | some _ => { s with loader.waiting := true }
  | none => { s with loader.running := some (passInputs training s) }

/-! ## Tone margins (R32) -/

/-- m_i = S_i + C − T[b_i]. -/
def toneMargin (t : List Nat) (credit s bits : Nat) : Int := (s : Int) + credit - threshold t bits

/-- The smallest tone margin over the loaded tones, `none` when no tone is loaded. -/
def leastMargin (t : List Nat) (credit : Nat) : List Meas → List ToneRec → Option Int
  | m :: ms, r :: rs =>
    let rest := leastMargin t credit ms rs
    if r.bits = 0 then rest
    else
      let x := toneMargin t credit m.s r.bits
      match rest with
      | none => some x
      | some y => some (min x y)
  | _, _ => none

/-- The line margin, "0 when the active RX bank has no loaded tone" (R32). -/
def lineMarginOf (t : Tones) : Int := (leastMargin t.thresholds t.credit t.meas (t.active .rx)).getD 0

/-! ## Swap evaluation (R33 to R35) -/

/-- A loaded tone as the evaluation sees it. -/
structure ToneView where
  tone : Nat
  bits : Nat
  gain : Int
  s : Nat
  cap : Nat
  state : ToneState
  margin : Int
  deriving DecidableEq, Repr

/-- Every RX tone of the active bank with its measurement, setting and margin. -/
def toneViews (t : List Nat) (credit : Nat) : Nat → List Meas → List ToneRec → List ToneSetting → List ToneView
  | i, m :: ms, r :: rs, c :: cs =>
    ⟨i, r.bits, r.gain, m.s, c.cap, c.state, toneMargin t credit m.s r.bits⟩ :: toneViews t credit (i + 1) ms rs cs
  | _, _, _, _ => []

/-- "A tone that is loaded while MASKED, RETIRED or above its cap" (R33). -/
def ToneView.faulty (v : ToneView) : Bool := v.state != .active || v.cap < v.bits

/-- Weaker in the order of R33: a faulty tone before any other, then the lower margin; ties keep the lower index. -/
def weaker (a b : ToneView) : Bool :=
  (a.faulty && !b.faulty) || (a.faulty == b.faulty && a.margin < b.margin)

/-- The weakest loaded tone not under a retry hold (R33). -/
def weakest (held : List (Nat × Nat)) (views : List ToneView) : Option ToneView :=
  views.foldl (fun best v =>
    if v.bits = 0 ∨ held.any (·.1 == v.tone) then best
    else
      match best with
      | none => some v
      | some w => if weaker v w then some v else some w) none

/-- The gain lift of R34: the least of three amounts. -/
def liftOf (m : Nat) (sum : Int) (v : ToneView) : Int := min (min ((m : Int) - v.margin) (10 - v.gain)) (-sum)

/-- The bits the weak tone gives up, and its bits after (R35). -/
def givenUp (v : ToneView) : Nat × Nat :=
  if v.state ≠ .active then (v.bits, 0)
  else if v.cap < v.bits then (v.bits - v.cap, v.cap)
  else if 3 ≤ v.bits then (1, v.bits - 1)
  else (v.bits, 0)

/-- The bits a candidate would carry after one placement: 1 more on a loaded tone, 2 on an unloaded one (R35). -/
def ToneView.after (v : ToneView) : Nat := if v.bits = 0 then 2 else v.bits + 1

/-- A candidate of R35 for a placement with `left` freed bits remaining. -/
def candidate (t : List Nat) (credit m ceiling weak left : Nat) (v : ToneView) : Bool :=
  v.tone != weak && v.state == .active && v.tone ≤ ceiling && v.after ≤ v.cap && v.after ≤ 12
    && (m : Int) ≤ toneMargin t credit v.s v.after && (0 < v.bits || 2 ≤ left)

/-- The candidate with the largest margin after the addition, ties to the lowest index (R35). -/
def bestCandidate (t : List Nat) (credit m ceiling weak left : Nat) (views : List ToneView) : Option ToneView :=
  views.foldl (fun best v =>
    if candidate t credit m ceiling weak left v then
      match best with
      | none => some v
      | some w =>
        if toneMargin t credit w.s w.after < toneMargin t credit v.s v.after then some v else some w
    else best) none

/-- Place the freed bits one placement at a time, each judged on the records as the last left them; `none` when a bit
cannot be placed (R35). -/
def placeBits (t : List Nat) (credit m ceiling weak : Nat) : Nat → Nat → List ToneView → Option (List ToneView)
  | 0, left, views => if left = 0 then some views else none
  | fuel + 1, left, views =>
    if left = 0 then some views
    else
      match bestCandidate t credit m ceiling weak left views with
      | none => none
      | some w =>
        placeBits t credit m ceiling weak fuel (left - (w.after - w.bits))
          (views.map fun v => if v.tone = w.tone then { v with bits := w.after } else v)

/-- The entries of the tones whose bits differ between two lists of views, in tone order. -/
def changedEntries : List ToneView → List ToneView → List SwapEntry
  | a :: as, b :: bs =>
    if a.bits = b.bits then changedEntries as bs else ⟨b.tone, b.bits, b.gain⟩ :: changedEntries as bs
  | _, _ => []

/-- The bit move of R35: an order of at most 4 entries, or none. The weak tone's entry stands first and the others in ascending
tone index, an order R35 does not give (log entry 55). -/
def bitMove (t : List Nat) (credit m ceiling : Nat) (views : List ToneView) (v : ToneView) : Option (List SwapEntry) :=
  let g := givenUp v
  match placeBits t credit m ceiling v.tone g.1 g.1 views with
  | none => none
  | some placed =>
    let es := ⟨v.tone, g.2, v.gain⟩ :: changedEntries views placed
    if es.length ≤ 4 then some es else none

/-- A swap evaluation (R33 to R35): the weak tone and the entries of its order, when there is one. -/
def evaluateSwap (s : State) : Option (Nat × List SwapEntry) :=
  let t := s.tones
  let m := t.margins.m
  let views := toneViews t.thresholds t.credit 33 t.meas (t.active .rx) t.rxSet
  match weakest s.shifts.held views with
  | none => none
  | some v =>
    if v.margin < (m : Int) - 8 ∨ v.faulty then
      let lift := liftOf m (gainSum (t.active .rx)) v
      if !v.faulty && 0 < lift && (m : Int) - 8 ≤ v.margin + lift then
        some (v.tone, [⟨v.tone, v.bits, v.gain + lift⟩])
      else (bitMove t.thresholds t.credit m (toneCeiling s) views v).map fun es => (v.tone, es)
    else none

/-- Write swap entries into a bank of a direction (R36, R37). -/
def writeEntries (d : Dir) (bank : List ToneRec) (es : List SwapEntry) : List ToneRec :=
  es.foldl (fun b e => if inDir d e.tone then b.set (e.tone - firstTone d) ⟨e.bits, e.gain⟩ else b) bank

end Sys2Proof.Machine
end

