-- ==== Sys2Proof/Machine/LineOps.lean ====
section
/-! DEFINITION. Shared operations of the slow machinery: the archive's erases and rotation (R159 to R163), the moves of the
line between its states (R43 to R55), the giving back of a tested line or port (R174, R175), the moves between the supply
states (R182 to R187) and the running of the local timebase (R179, R180). -/
namespace Sys2Proof.Machine

/-! ## The archive (R159 to R163) -/

/-- An erase of a block begins (R160): its table entry is cleared of slots, and its header and records are no more (log
entry 8). A CRITICAL record with a slot offered suspends it at once (R161). -/
def Archive.beginErase (a : Archive) (b : Nat) (origin : Origin) : Archive :=
  let t := (a.setEntry b fun e => { e with nextOrdinary := 0, nextReserved := 126, damaged := 0 }).setBlock b
    fun _ => ⟨none, []⟩
  Archive.serve { t with erase := some ⟨b, origin, 800⟩, state := .erasing }

/-- The block rotation acts on: the first after the pointer that is not BAD, up to the pointer's own (R159). -/
def Archive.rotationTarget (a : Archive) : Option Nat :=
  ((List.range 4).map fun k => (a.pointer + 1 + k) % 4).find? fun i => (a.entry i).state != .bad

/-- A block becomes CURRENT (R159, R160): the full-reported flag is cleared and waiting records are served (R156). -/
def Archive.makeCurrent (a : Archive) (i : Nat) : Archive :=
  let t := a.setEntry i fun e => { e with state := .current, nextOrdinary := 0, nextReserved := 126 }
  Archive.serve { t with pointer := i, fullReported := false }

/-- Every record of the pending list that is not CRITICAL is missed (R159). -/
def Archive.missMinor (a : Archive) : Archive :=
  let keep := a.pendingList.filter fun c => c.severity == .critical
  (a.pendingList.filter fun c => c.severity != .critical).foldl (fun x _ => x.miss) { a with pendingList := keep }

/-- The rotation step, taken while no block is CURRENT (R159). An ERASED block that is itself being erased does not become
CURRENT before the erase has ended (log entry 32). -/
def rotate (s : State) : State :=
  let a := s.archive
  if a.current ≠ none then s
  else
    match a.rotationTarget with
    | none => s
    | some i =>
      if (a.entry i).state = .erased then
        if a.isTarget i then s else { s with archive := a.makeCurrent i }
      else
        match a.mode with
        | .wrap =>
          if a.state = .ready ∧ s.supply.state ≠ .dormant ∧ a.blockSequence < sequenceTop then
            { s with archive := a.beginErase i .internal }
          else s
        | .keep =>
          let t := { s with archive := { a.missMinor with fullReported := true } }
          if a.fullReported then t else raise .archive .minor .archiveFull [] t

/-- The sequencer has become READY: waiting records are served, and the rotation step is taken when no block is CURRENT
(R156, R159), in that order at the end of a program too (log entry 60). -/
def archiveReady (s : State) : State := rotate { s with archive := s.archive.serve }

/-- The supply enters DORMANT (R163): the target of an erase becomes NEEDS_ERASE, a BAD block too (log entry 61). -/
def abortErase (s : State) : State :=
  match s.archive.erase with
  | none => s
  | some e =>
    let a := { s.archive.setEntry e.block (fun x => { x with state := .needsErase }) with erase := none }
    if a.program.isSome then { s with archive := { a with state := .programming } }
    else archiveReady { s with archive := { a with state := .ready } }

/-! ## Training attempts (R42 to R50) -/

/-- Whatever a training attempt holds is given up: its timers and marks, its training pass or waiting request (R47), and a
supply shift that waited for the attempt's SERVICE (R60). -/
def endAttempt (s : State) : State :=
  { s with
    line := { s.line with
      handshakeTimer := none, tablesTimer := none, probeStart := none, probeTimer := none, probeSampled := false
      passStarted := false, passHold := false, rxTableSent := false, txTableTaken := false, readySent := false
      entryCount := none, startRepeat := none, rxTableRepeat := none, readyRepeat := none }
    loader := ⟨s.loader.running.filter (fun p => !p.training), false⟩
    shifts.rx.supplyPending := false
    framer.lineOut := .silent }

/-- TRAIN_START with the present hold flag (R44). -/
def trainStart (s : State) : List Byte := trainingBytes 0x01#8 (flagByte (s.supply.state == .hold))

/-- RX_TABLE from bank A of RX with the pass's hold flag (R44). -/
def rxTable (s : State) : List Byte :=
  trainingBytes 0x03#8
    (flagByte s.line.passHold ++ [byteOf 33, byteOf 223] ++ tonePairs (s.tones.rxA.map fun r => (r.bits, r.gain)))

def tablesReady : List Byte := trainingBytes 0x05#8 []

/-- Entry to HANDSHAKE (R45). -/
def enterHandshake (s : State) : State :=
  let t := endAttempt s
  { t with
    line := { t.line with state := .handshake, handshakeTimer := some 1000, startRepeat := some 20 }
    framer := { t.framer with lineOut := .training, trainOut := trainStart t } }

/-- The back-off of the WAIT after a failure, by the attempt count (R50). -/
def backoffOf (attempts : Nat) : Nat :=
  if attempts ≤ 1 then 2 else if attempts = 2 then 4 else if attempts = 3 then 8 else if attempts = 4 then 16 else 30

/-- A failed attempt (R50). -/
def failAttempt (why : TrainFail) (s : State) : State :=
  let t := endAttempt s
  let n := satInc 255 t.line.attempts
  let t := { t with
    line := { t.line with state := .wait, attempts := n, backoff := backoffOf n }
    tester.autoPending := t.tester.autoPending || n == 3 }
  raise .line (if n ≤ 2 then .minor else .major) .trainingFailed [Config.trainingReason why.index, (n : Int)] t

/-- The move from OFF to HANDSHAKE (R43, R177). -/
def leaveOff (s : State) : State :=
  enterHandshake { s with line.attempts := 0, tester.autoPending := false }

/-! ## Leaving SERVICE (R54, R55) -/

/-- Whether the cause counts RETRAINS (R54). -/
def LossReason.countsRetrain : LossReason → Bool
  | .disabled | .dormant | .test => false
  | _ => true

/-- What R70 and Chapter 3 leave of the Impulse Tracker: its timers stopped and every quiet schedule dropped. -/
def Impulse.stopped (i : Impulse) : Impulse :=
  { i with
    prediction := none, tail := none, due := false, down := none, downOut := none, up := none, upNext := []
    downEnding := false, upEnding := false }

/-- The line's records as R55 leaves them, and the next line state. -/
def Line.afterService (l : Line) (why : LossReason) (next : LineState) : Line :=
  { l with
    state := next, lastLoss := some why, backoff := if next = .wait then 1 else l.backoff
    retrainSeconds := 0, lowSeconds := 0, highSeconds := 0, severeSeconds := 0 }

/-- The second in progress is classified when at least one cycle of it passed in SERVICE, and its record emptied (R133,
R134). -/
def closeSecond (s : State) : State := if 1 ≤ s.perf.serviceCycles then classifySecond s else emptySecond s

/-- What takes place together as the line leaves SERVICE (R55), with the next line state. The receiver
drops what it has collected and stays as it is, ALIGNED or HUNT, until the next entry (R10; log entry 43). The notices of the
step come in the order of log entry 23. -/
def leaveServiceTo (why : LossReason) (next : LineState) (s : State) : State :=
  let t := raise .line .major .serviceLost [(why.code : Int)] s
  let t := closeSecond t
  let t := if why.countsRetrain then count .retrains t else t
  let t := stopOverhead (freeAllSlots t)
  { t with
    line := t.line.afterService why next
    handset := { t.handset with p1 := t.handset.p1.lineLost, p2 := t.handset.p2.lineLost }
    framer := { t.framer with
      rx := t.framer.rx.stopped, tx := t.framer.tx.stopped, up := .boundary, window := []
      lineOut := .silent, lineGains := [] }
    impulse := t.impulse.stopped
    tones.lineMargin := 0
    loader := ⟨t.loader.running.map (fun p => { p with ignored := true }), t.loader.waiting⟩
    shifts := ⟨{ t.shifts.rx with phase := .idle, supplyPending := false, holdOff := none }, none, none, none, []⟩
    supply.powerLossWaiting := false }

/-! ## Tests (R174 to R177) -/

/-- The test record's result goes into the table (R176). -/
def writeResult (c : Claim) (v : Verdict) (value : Int) (s : State) : State :=
  { s with tester.results := s.tester.results.set c.test.index ⟨v, value, c.port, some c.origin, s.time.uptime⟩ }

def portNumber : Option Port → Nat
  | none => 0
  | some p => p.index

/-- TEST_RESULT (R142, R174). -/
def reportResult (c : Claim) (v : Verdict) (value : Int) (s : State) : State :=
  raise .test (resultSeverity c.test v) .testResult
    [Config.testTarget c.test.index (portNumber c.port), value, (v.code : Int)] s

/-- The line goes back where the test took it from (R174). -/
def giveLineBack (c : Claim) (s : State) : State :=
  match c.lineBefore with
  | some .off => if s.line.enabled then leaveOff s else { s with line.state := .off }
  | some .wait => { s with line.state := .wait }
  | some .handshake => enterHandshake s
  | some .service => enterHandshake { s with line.attempts := 0 }
  | _ => s

/-- A tested port returns to IDLE (R174, R99). -/
def givePortBack (c : Claim) (s : State) : State :=
  match c.port with
  | some p => idleThenLoop p s
  | none => s

/-- A test in progress is aborted: its result is ABORTED, the notice is raised and the claim is free (R175). -/
def abortClaim (c : Claim) (s : State) : State :=
  reportResult c .aborted 0 { writeResult c .aborted 0 s with tester.claim := none }

/-- A test in progress is aborted and its line and port go back as R174 gives. -/
def abortTest (s : State) : State :=
  match s.tester.claim with
  | some c => givePortBack c (giveLineBack c (abortClaim c s))
  | none => s

/-- A line test in progress is aborted as the line goes OFF (R43, R175). -/
def abortLineTest (s : State) : State :=
  match s.tester.claim with
  | some c => if lineTest c.test then abortClaim c s else s
  | none => s

/-- The line enters OFF from any state (R43). -/
def lineToOff (why : LossReason) (s : State) : State :=
  match s.line.state with
  | .service => leaveServiceTo why .off s
  | .off => s
  | _ => let t := abortLineTest (endAttempt s); { t with line.state := .off }

/-! ## Supply states (R182 to R187) -/

/-- Both data queues are emptied, with what is left of a frame on the line (R131). -/
def emptyQueues (s : State) : State :=
  judgeFlow { s with data.priority := [], data.bulk := [], framer.up := .boundary }

/-- A mains-return wake taken as the supply enters DORMANT with the return timer running (R186); a port wake of the same entry has
been taken before it (log entry 74). -/
def wakeIfReturning (s : State) : State :=
  if s.supply.returnTimer.isSome ∧ s.supply.wakeSet.mainsReturn then takeWake .mainsReturn s else s

/-- Entry to DORMANT (R184); on the order of two wakes at the entry, log entry 74. -/
def enterDormant (s : State) : State :=
  let t := { s with supply := { s.supply with
    state := .dormant, settle := none, wakeWindow := none, powerLossHold := none, powerLossWaiting := false } }
  let t := lineToOff .dormant t
  let t := setAllowance 0 t
  let t := abortTest t
  let t := abortErase t
  wakeIfReturning (emptyQueues t)

/-- The dormancy condition is judged (R183). -/
def dormancyCheck (s : State) : State := if dormancyHolds s then enterDormant s else s

/-- Step 4 of the power-loss sequence: DORMANT is entered once the hold, which counts half milliseconds, has run at
least 1 ms and no POWER_LOSS message waits to be carried, and at the end of the hold in any case (R185). -/
def powerLossCheck (s : State) : State :=
  match s.supply.powerLossHold with
  | some h => if h = 0 ∨ (h ≤ 298 ∧ !s.supply.powerLossWaiting) then enterDormant s else s
  | none => s

/-- The line leaves SERVICE for a cause of R54; the slots that are freed let the dormancy condition be judged (R183), and a
POWER_LOSS message discarded with the overhead channel ends its sequence (R185). -/
def leaveService (why : LossReason) (next : LineState) (s : State) : State :=
  powerLossCheck (dormancyCheck (leaveServiceTo why next s))

/-- The power-loss sequence, steps 1 to 3 (R185); reasons EXHAUSTED and NO_BATTERY are numbered 1 and 2 (R199). -/
def powerLossSequence (s : State) : State :=
  let reason := if s.supply.battery = .exhausted then 1 else 2
  let inService := s.line.state == .service
  let t := offer (.powerLoss reason) s
  let t := raise .supply .critical .powerLoss [(reason : Int)] t
  { t with supply := { t.supply with
    powerLossDone := true
    settle := none
    powerLossWaiting := inService
    powerLossHold := if t.supply.state = .dormant then none else some 300 } }

/-- A supply entry sets a supply shift pending in SERVICE, or when the attempt's training pass has started (R60). -/
def supplyShiftDue (s : State) : State :=
  if s.line.state = .service ∨ s.line.passStarted then { s with shifts.rx.supplyPending := true } else s

/-- Entry to HOLD from FULL (R182, R175, R60, R96); a test in progress is aborted here and its port given back, with the notices
of both, before MAINS_LOST is raised (log entry 66). -/
def enterHold (s : State) : State :=
  let t := setAllowance 1 { s with supply.state := .hold }
  supplyShiftDue (abortTest t)

/-- Entry to FULL (R182, R181, R60, R96). -/
def enterFull (s : State) : State :=
  let t := setAllowance 2
    { s with supply := { s.supply with
      state := .full, wakeWindow := none, lowReported := false, powerLossDone := false } }
  supplyShiftDue t

/-- The line and the archive as the supply leaves DORMANT (R187, R43, R163). -/
def awaken (s : State) : State :=
  rotate (if s.line.state = .off ∧ s.line.enabled then leaveOff s else s)

/-! ## The local timebase (log entry 3) -/

/-- A count-up timer, up to its cap. -/
def tickUp (cap : Nat) (t : Option Nat) : Option Nat := t.map fun n => if n < cap then n + 1 else n

/-- The level the loop state stands for: closed in OFF_HOOK, open in ON_HOOK and BREAK (R81). -/
def PortRec.level (r : PortRec) : Bool := r.loop == .offHook

/-- The debounce timer after one more sample of the loop-sense input (R81). -/
def PortRec.debounced (r : PortRec) : Option Nat :=
  if r.closed = r.level then none else some (min 20 (r.debounce.getD 0 + 1))

/-- The millisecond timers of a port (R81, R82, R83). -/
def PortRec.tick (r : PortRec) : PortRec :=
  { r with
    debounce := r.debounced
    brk := tickUp (r.breakFlash + 1) r.brk
    make := tickUp r.makeLimit r.make }

/-- The half-millisecond counts of the flash operations: a program runs in any state, an erase only while ERASING. -/
def Archive.tick (a : Archive) : Archive :=
  { a with
    program := a.program.map fun p => { p with left := p.left - 1 }
    erase := if a.state = .erasing then a.erase.map fun e => { e with left := e.left - 1 } else a.erase }

/-- The millisecond timers (R179, R180, R186). -/
def Supply.tick (p : Supply) : Supply :=
  { p with
    lossTimer := tickUp 200 p.lossTimer
    returnTimer := tickUp 5000 p.returnTimer
    settle := tickDown p.settle }

/-- Half a millisecond passes on the local timebase: the flash operations and the power-loss hold count it, and every other
half is a millisecond. -/
def halfTick (s : State) : State :=
  let t := { s with
    archive := s.archive.tick
    factory := { s.factory with programming := s.factory.programming.map fun p => { p with left := p.left - 1 } }
    supply.powerLossHold := tickDown s.supply.powerLossHold }
  powerLossCheck (if s.time.halfMs = 0 then { t with time.halfMs := 1 }
    else { onPorts PortRec.tick t with supply := t.supply.tick, time.halfMs := 0 })

/-- `n` half milliseconds pass. -/
def advance : Nat → State → State
  | 0, s => s
  | n + 1, s => advance n (halfTick s)

/-- `n` whole milliseconds pass. -/
def advanceMs (n : Nat) (s : State) : State := advance (2 * n) s

/-- The local timebase runs until a timer that counts whole milliseconds has moved `n` more times. -/
def advanceTo (n : Nat) (s : State) : State := advance (2 * n - s.time.halfMs) s

end Sys2Proof.Machine
end

