-- ==== Sys2Proof/Machine/StartUp.lean ====
section
/-! DEFINITION. Power-on, restart and loss of power: the archive's power-on scan (R167), the Factory Store's handing out
(R195), POWER_ON (R193), RESTART_TAKES_EFFECT (R194) and LOSS_OF_POWER (R163, R196). -/
namespace Sys2Proof.Machine

/-! ## The power-on scan (R167) -/

/-- One past the highest used slot in a range of slots, or its first. -/
def nextSlot (lo hi : Nat) (slots : List (Nat × SlotImage)) : Nat :=
  slots.foldl (fun n e => if lo ≤ e.1 ∧ e.1 < hi ∧ n ≤ e.1 then e.1 + 1 else n) lo

def isDamaged : SlotImage → Bool
  | .damaged => true
  | .record _ => false

/-- The table entry of a block by its header and slots (R167, step 1); CURRENT is judged afterwards. -/
def scanBlock (b : FlashBlock) : BlockEntry :=
  match b.header with
  | none => BlockEntry.blank
  | some h =>
    if b.slots.isEmpty then ⟨.erased, h.sequence, h.eraseCount, 0, 126, 0⟩
    else
      ⟨.full, h.sequence, h.eraseCount, nextSlot 0 126 b.slots, nextSlot 126 128 b.slots,
        b.slots.countP fun e => isDamaged e.2⟩

/-- The block with the highest block sequence among those that hold a used slot (R167, steps 2 and 3). -/
def newestUsed (table : List BlockEntry) : Option Nat :=
  (List.range table.length).foldl (fun best i =>
    let e := table.getD i BlockEntry.blank
    if e.state = .full then
      match best with
      | none => some i
      | some j => if (table.getD j BlockEntry.blank).sequence < e.sequence then some i else some j
    else best) none

/-- The records of the flash array. -/
def flashRecords (flash : List FlashBlock) : List ArchRec :=
  flash.flatMap fun b => b.slots.filterMap fun e =>
    match e.2 with
    | .record r => some r
    | .damaged => none

/-- "the highest …, plus 1, or 1 when there is none", staying at `top` (R153, R167 step 4). -/
def onePast (top : Nat) (l : List Nat) : Nat :=
  match l with
  | [] => 1
  | x :: rest => min top (rest.foldl max x + 1)

/-- Steps 1 to 4 of the scan. -/
def scanFlash (flash : List FlashBlock) : Archive :=
  let found := flash.map scanBlock
  let newest := newestUsed found
  let table := match newest with
    | some i =>
      if (found.getD i BlockEntry.blank).nextOrdinary < 126 then found.modify i fun e => { e with state := .current }
      else found
    | none => found
  let records := flashRecords flash
  { flash := flash
    table := table
    pointer := newest.getD 3
    sequence := onePast sequenceTop (records.map (·.sequence))
    blockSequence := onePast sequenceTop (flash.filterMap fun b => b.header.map (·.sequence))
    powerOns := onePast 65535 (records.map (·.powerOns))
    missed := 0
    pendingList := []
    state := .ready
    program := none
    erase := none
    programFailed := false
    eraseFailed := false
    mode := .wrap
    fullReported := false }

/-! ## The Factory Store's items (R195) -/

/-- The value of a PROGRAMMED item. -/
def itemValue (items : List ItemState) (i : Nat) : Option Item :=
  match items[i]? with
  | some (.programmed v) => some v
  | _ => none

def isProgrammed : ItemState → Bool
  | .programmed _ => true
  | _ => false

/-- The items that FACTORY_BLANK reports: blank or spoiled (R193). -/
def blankCount (items : List ItemState) : Nat := items.countP fun x => !isProgrammed x

def storedSerial (items : List ItemState) : Nat × Nat :=
  match itemValue items 0 with
  | some (.identity s r) => (s, r)
  | _ => (0, 0)

def storedType (items : List ItemState) : Nat :=
  match itemValue items 1 with
  | some (.managementType v) => v
  | _ => 0xA5C1

def storedThresholds (items : List ItemState) : List Nat :=
  match itemValue items 2 with
  | some (.thresholds t) => t
  | _ => builtInThresholds

def storedCadences (items : List ItemState) : List (List (Nat × Nat)) :=
  match itemValue items 3 with
  | some (.cadences c) => c
  | _ => builtInCadences

def storedMargins (items : List ItemState) : Margins :=
  match itemValue items 4 with
  | some (.margins m) => m
  | _ => builtInMargins

def storedCeiling (items : List ItemState) : Nat :=
  match itemValue items 5 with
  | some (.holdCeiling t) => t
  | _ => 96

/-- The Tone Store and tables after a reset (section 2.10). -/
def freshTones (items : List ItemState) : Tones :=
  { Tones.reset with
    thresholds := storedThresholds items, margins := storedMargins items, holdCeiling := storedCeiling items }

/-- STARTED, and FACTORY_BLANK when an item is blank or spoiled (R193, R194). Reset kinds are numbered in the order
POWER_ON, RESTART (log entry 16). -/
def announce (kind : Int) (s : State) : State :=
  let t := raise .system .info .started [kind, (s.archive.powerOns : Int)] s
  let n := blankCount s.factory.items
  if 0 < n then raise .archive .minor .factoryBlank [(n : Int)] t else t

/-- The line enters HANDSHAKE, or stays OFF when the supply is DORMANT (R42). -/
def startLine (s : State) : State := if s.supply.state = .dormant then s else enterHandshake s

/-! ## Power-on (R193) -/

/-- The supply state chosen at power-on (R179). -/
def supplyAtPowerOn (mains : Bool) (b : Battery) : SupplyState :=
  if mains then .full else if b = .good then .hold else .dormant

def Supply.atPowerOn (mains : Bool) (b : Battery) : Supply where
  state := supplyAtPowerOn mains b
  mainsSense := mains
  mainsPresent := mains
  lossTimer := none
  returnTimer := none
  battery := b
  lowReported := !mains && b == .low
  powerLossDone := false
  powerLossHold := none
  powerLossWaiting := false
  wakeSet := ⟨true, true, true, true⟩
  wakeReason := .none
  settle := none
  wakeWindow := none

/-- Every block at its power-on values, with what survives a loss of power: the flash array and the Factory Store's items;
the queue of waiting commands is not the part's. -/
def coldState (queue : List Instr) (flash : List FlashBlock) (items : List ItemState) (supply : Supply)
    (loop1 loop2 : Bool) : State where
  pending := queue
  powered := true
  time := Time.reset
  tones := freshTones items
  loader := Loader.reset
  line := Line.reset
  shifts := Shifts.reset
  impulse := Impulse.reset
  framer := Framer.reset
  overhead := Overhead.reset
  handset := ⟨PortRec.reset loop1, PortRec.reset loop2, storedCadences items, allowanceOf supply.state⟩
  slots := Slots.reset
  data := Data.reset false (storedType items)
  perf := Perf.reset
  notices := Notices.reset
  archive := scanFlash flash
  tester := Tester.reset
  supply := supply
  mgmt := ⟨Chan.reset, Chan.reset, none, .powerOn, (storedSerial items).1, (storedSerial items).2⟩
  factory := ⟨items, false, none⟩

/-- A loss of all power (R163, R196): a program in progress leaves a damaged slot, an erase in progress a block without a
valid header, a Factory Store programming a SPOILED item. What is volatile is lost; the part is without power. -/
def losePower (s : State) : State :=
  let a := match s.archive.program with
    | some p => s.archive.setBlock p.block fun b => b.write p.slot .damaged
    | none => s.archive
  let a := match a.erase with
    | some e => a.setBlock e.block fun b => { b with header := none }
    | none => a
  let items := match s.factory.programming with
    | some p => s.factory.items.set p.index .spoiled
    | none => s.factory.items
  { coldState s.pending a.flash items (Supply.atPowerOn false .none) false false with powered := false }

/-- The part comes up (R193), from what a loss of power has left. -/
def bringUp (mains : Bool) (battery : Battery) (loop1 loop2 : Bool) (s : State) : State :=
  let cold := coldState s.pending s.archive.flash s.factory.items (Supply.atPowerOn mains battery) loop1 loop2
  let t := announce 0 (rotate cold)
  let t := if t.supply.lowReported then raise .supply .major .batteryLow [] t else t
  startLine t

/-- POWER_ON (R193): a reset of a part that still had power cuts its power first. -/
def execPowerOn (mains : Bool) (battery : Battery) (loop1 loop2 : Bool) (s : State) :
    Host.Outcome State Fault Refusal :=
  .next (bringUp mains battery loop1 loop2 (losePower s))

/-- LOSS_OF_POWER (R163). -/
def execLossOfPower (s : State) : Host.Outcome State Fault Refusal := run losePower s

/-! ## Restart (R194) -/

/-- The ring keeps its 16 newest entries (R137). -/
def appendInterval (ring : List Interval) (e : Interval) : List Interval :=
  let l := ring ++ [e]
  l.drop (l.length - 16)

/-- The current interval closes and the next begins (R136, R137). -/
def closeInterval (partialFlag : Bool) (s : State) : State :=
  let p := s.perf
  { s with perf := { p with
      ring := appendInterval p.ring ⟨p.number, p.start, p.seconds, partialFlag, p.counters, p.crossings⟩
      number := (p.number + 1) % 65536
      start := s.time.uptime
      seconds := 0
      begunByRestart := false
      counters := List.replicate 12 0
      crossings := List.replicate 12 false } }

/-- The result of a test that a restart aborts; no notice is raised (R175). -/
def abortSilently (s : State) : State :=
  match s.tester.claim with
  | some c => writeResult c .aborted 0 s
  | none => s

/-- The moment of R194 has come, and no Factory Store programming is in progress. -/
def restartDue (s : State) : Bool :=
  match s.mgmt.restart with
  | some r => (r.unsent == 0 || r.timer == 0) && s.factory.programming.isNone
  | none => false

/-- The home side of the Data Queue Unit after a restart: queues and buffer empty, the link kept, a pause frame of time 0
first when flow pause was asserted with the link UP, or was due already (R126, R194). A frame of the buffer on the wire is cut
off, a pause frame on the wire runs to its end (log entry 53). -/
def Data.restarted (d : Data) (mtype : Nat) : Data :=
  { Data.reset d.linkUp mtype with
    tx := (match d.tx with
      | .pause t p => .pause t p
      | _ => .idle)
    pauseDue := if d.linkUp && (d.flowPause || d.pauseDue == some .zero) then some .zero else none }

/-- What step 2 to step 4 of R194 leave: every block's restart values. The interval that the restart begins is partial and closes
at the next multiple of 900 (R137), so that a close due at the restart is due no more (log entry 59). -/
def restartedState (origin : Channel) (s : State) : State where
  pending := s.pending
  powered := s.powered
  time := { s.time with cycleCount := 0, symbolNo := 0, symbolCounter := 0, intervalDue := false }
  tones := freshTones s.factory.items
  loader := Loader.reset
  line := Line.reset
  shifts := Shifts.reset
  impulse := Impulse.reset
  framer := Framer.reset
  overhead := Overhead.reset
  handset := ⟨PortRec.reset s.handset.p1.closed, PortRec.reset s.handset.p2.closed, storedCadences s.factory.items,
    allowanceOf s.supply.state⟩
  slots := Slots.reset
  data := s.data.restarted (storedType s.factory.items)
  perf := { Perf.reset with
    number := s.perf.number, start := s.perf.start, ring := s.perf.ring, begunByRestart := true }
  notices := Notices.reset
  archive := s.archive
  tester := { Tester.reset with results := s.tester.results }
  supply := { s.supply with wakeSet := ⟨true, true, true, true⟩, powerLossWaiting := false }
  mgmt := ⟨Chan.reset, Chan.reset, none, .restart origin, (storedSerial s.factory.items).1,
    (storedSerial s.factory.items).2⟩
  factory := ⟨s.factory.items, false, none⟩

/-- A power-loss hold running at the restart ends, and DORMANT is entered (R179, R185). STARTED is raised before, so that it
has sequence 0 (R141). -/
def endHold (s : State) : State := if s.supply.powerLossHold.isSome then enterDormant s else s

/-- The steps of R194. The dormancy condition is not judged for the slots they free (log entry 77). -/
def restartNow (origin : Channel) (s : State) : State :=
  let t := abortSilently (closeInterval true s)
  startLine (endHold (announce 1 (kickHome (restartedState origin t))))

/-- RESTART_TAKES_EFFECT (R194). -/
def execRestartTakesEffect (s : State) : Host.Outcome State Fault Refusal :=
  run (whenDue (restartDue s) fun s =>
    match s.mgmt.restart with
    | some r => restartNow r.origin s
    | none => s) s

end Sys2Proof.Machine
end

