-- ==== Sys2Proof/Machine/TimeCmds.lean ====
section
/-! DEFINITION. The commands of time: CYCLE_BOUNDARY (R1, R21 to R23, R32 to R36, R52, R94, R105), SECOND_BOUNDARY (R2, R38,
R53, R134) and INTERVAL_CLOSE (R136). -/
namespace Sys2Proof.Machine

/-! ## The end of a cycle -/

/-- A sample is formed of a cycle with at least 20 good symbols in PROBE or SERVICE; the first of PROBE sets S (R21,
R22). -/
def sampleCycle (samples : List Int) (s : State) : State :=
  if 20 ≤ s.tones.goodSymbols ∧ (s.line.state = .probe ∨ s.line.state = .service) then
    let first := s.line.state == .probe && !s.line.probeSampled
    { s with
      tones.meas := takeSamples first s.tones.meas samples
      line.probeSampled := s.line.probeSampled || s.line.state == .probe }
  else s

/-- The line margin of a cycle end in SERVICE (R32) and the judgment of the cycle's signal (R52, R133). -/
def judgeCycle (energy nominal : Nat) (s : State) : State :=
  if s.line.state = .service then
    let absent := noSignalCycle energy nominal
    { s with
      tones.lineMargin := lineMarginOf s.tones
      line.losTimer := if absent then satInc 50 s.line.losTimer else 0
      perf := { s.perf with
        noSignal := s.perf.noSignal || absent, serviceCycles := satInc 100 s.perf.serviceCycles } }
  else s

/-- The count, the second position and the symbol number (R1, R2). -/
def Time.nextCycle (t : Time) : Time :=
  { t with
    cycleCount := (t.cycleCount + 1) % 256
    symbolNo := 0
    secondPos := (t.secondPos + 1) % 100
    secondDue := t.secondPos == 99 }

/-! ## Timers that count cycles -/

def Line.tick (l : Line) : Line :=
  { l with
    handshakeTimer := tickDown l.handshakeTimer
    tablesTimer := tickDown l.tablesTimer
    probeTimer := tickDown l.probeTimer
    startRepeat := tickDown l.startRepeat
    rxTableRepeat := tickDown l.rxTableRepeat
    readyRepeat := tickDown l.readyRepeat }

/-- The offer wait counts in OFFERED (R58), the wait of a swap in flight from its order (R36). A swap that is acknowledged
is due at its swap count, or at the first boundary after a late acknowledgement. -/
def Shifts.tick (now : Nat) (x : Shifts) : Shifts :=
  { x with
    rx := { x.rx with offerWait := if x.rx.phase = .offered then x.rx.offerWait - 1 else x.rx.offerWait }
    rxSwap := x.rxSwap.map fun w =>
      { w with
        wait := tickDown w.wait
        passed := w.passed || w.swapCount == now
        due := w.acked && (w.passed || w.swapCount == now) } }

/-- Tone, ring and phase timers; the ring timer counts from the boundary at which the first on-phase begins (R93). -/
def PortRec.tickCycle (r : PortRec) : PortRec :=
  { r with
    toneTimer := tickDown r.toneTimer
    ringTimer := match r.cadence with
      | some c => if c.timer.isSome then tickDown r.ringTimer else r.ringTimer
      | none => r.ringTimer
    cadence := r.cadence.map fun c => { c with timer := tickDown c.timer } }

def SlotRec.tick (r : SlotRec) : SlotRec := { r with wait := tickDown r.wait }

/-- Every timer that counts cycle boundaries. -/
def tickCycle (s : State) : State :=
  { s with
    line := s.line.tick
    shifts := s.shifts.tick s.time.cycleCount
    handset := { s.handset with p1 := s.handset.p1.tickCycle, p2 := s.handset.p2.tickCycle }
    slots := { s.slots with s0 := s.slots.s0.tick, s1 := s.slots.s1.tick }
    tester.claim := s.tester.claim.map fun c => { c with timer := c.timer - 1 }
    data.pauseTimer := tickDown s.data.pauseTimer
    mgmt.restart := s.mgmt.restart.map fun r => { r with timer := r.timer - 1 } }

/-! ## The swap evaluation of a cycle end (R33, R36, R57) -/

/-- A run counter after a second: one more while its condition holds, up to its trigger, else 0 (R53). -/
def runCount (top : Nat) (holds : Bool) (n : Nat) : Nat := if holds then satInc top n else 0

/-- The run counters after a second boundary with the line margin held, and the class of the second (R53). -/
def Line.runCounters (l : Line) (m : Margins) (margin : Int) (severe : Bool) : Line :=
  { l with
    retrainSeconds := runCount 2 (margin < m.r) l.retrainSeconds
    lowSeconds := runCount 10 (margin < m.d) l.lowSeconds
    highSeconds := runCount 60 ((m.u : Int) < margin) l.highSeconds
    severeSeconds := runCount 10 severe l.severeSeconds }

/-- The hold-off of DOWN and UP shifts has ended at an uptime (R56). -/
def holdOffOver (uptime : Nat) (x : RxShift) : Bool :=
  match x.holdOff with
  | none => true
  | some t => reached uptime t

/-- The kind of the RX shift that may start with these run counters at this uptime (R57). -/
def shiftKindDue (uptime : Nat) (l : Line) (x : Shifts) : Option ShiftKind :=
  if x.rx.phase ≠ .idle ∨ x.rxSwap.isSome then none
  else if x.rx.supplyPending then some .supply
  else if l.lowSeconds = 10 ∧ holdOffOver uptime x.rx then some .down
  else if l.highSeconds = 60 ∧ holdOffOver uptime x.rx then some .up
  else none

/-- An RX shift starts at this boundary: judged, at a second boundary, with the run counters that boundary will leave. -/
def shiftStartsHere (s : State) : Bool :=
  let l := if s.time.secondDue then
      s.line.runCounters s.tones.margins s.tones.lineMargin (severeSecond s.perf) else s.line
  let up := if s.time.secondDue then laterUptime s.time.uptime 1 else s.time.uptime
  (shiftKindDue up l s.shifts).isSome

/-- A swap evaluation is asked for (R33, R57). -/
def swapEvaluated (s : State) : Bool :=
  s.line.state == .service && s.shifts.rx.phase != .offered && s.shifts.rx.phase != .agreed
    && s.shifts.rxSwap.isNone && s.loader.running.isNone && !shiftStartsHere s

/-- The evaluation, and the SWAP_ORDER it gives: swap count 8 ahead, a wait of 1 s (R36). -/
def orderSwap (s : State) : State :=
  if swapEvaluated s then
    match evaluateSwap s with
    | none => s
    | some (weak, es) =>
      let c := (s.time.cycleCount + 8) % 256
      offer (.swapOrder c es) { s with shifts.rxSwap := some ⟨es, c, some 100, weak, false, false, false⟩ }
  else s

/-! ## What else a boundary brings -/

/-- Cancelled quiet windows end at the boundary (R76, R77). -/
def Impulse.atBoundary (i : Impulse) : Impulse :=
  { i with
    down := if i.downEnding then none else i.down
    up := if i.upEnding then none else i.up
    downEnding := false
    upEnding := false }

/-- A first on-phase begins at this boundary (R93), together with every phase that the boundary ends or begins on the other
port, so that their on-phases are judged together (R95); CADENCE_PHASE_END then finds nothing left to end. -/
def startRings (s : State) : State :=
  if s.handset.p1.ringStartDue || s.handset.p2.ringStartDue then beginPhases s else s

/-- The codecs at the end of a cycle in the line states in which the part acts on nothing received: every port gets the local
samples of the symbols that have not come (R85, R91; log entry 26). -/
def offLineVoice (s : State) : State :=
  match s.line.state with
  | .off | .handshake | .wait | .test => restOfVoice s
  | .probe | .tables | .service => s

/-- Released slots become FREE, admitted ones enter the layout, and in SERVICE both budget records follow (R7, R105); a
slot that becomes FREE lets the dormancy condition be judged (R183). -/
def slotsAtBoundary (s : State) : State :=
  let freed := someReleased s
  let t := freeReleased s
  let t := if t.line.state = .service then recompute t else t
  if freed then dormancyCheck t else t

/-- A cycle ends and the next begins. -/
def cycleEnds (samples : List Int) (energy nominal : Nat) (s : State) : State :=
  let t := judgeCycle energy nominal (sampleCycle samples (offLineVoice s))
  let t := tickCycle { t with time := t.time.nextCycle, tones.goodSymbols := 0, impulse := t.impulse.atBoundary }
  slotsAtBoundary (startRings (orderSwap t))

/-- CYCLE_BOUNDARY (R1). -/
def execCycleBoundary (samples : List Int) (energy nominal : Nat) (s : State) : Host.Outcome State Fault Refusal :=
  run (cycleEnds samples energy nominal) s

/-! ## The second boundary -/

/-- Below-floor seconds after a second (R38). -/
def Meas.floorSecond (m : Meas) : Meas := { m with belowFloor := if m.s < 16 then satInc 60 m.belowFloor else 0 }

/-- ACTIVE tones whose count stands at 60 become RETIRED, from tone `i` on: the settings, and the tones retired (R38). -/
def retireTones : Nat → List Meas → List ToneSetting → List ToneSetting × List Nat
  | i, m :: ms, c :: cs =>
    let rest := retireTones (i + 1) ms cs
    if c.state = .active ∧ m.belowFloor = 60 then ({ c with state := .retired } :: rest.1, i :: rest.2)
    else (c :: rest.1, rest.2)
  | _, _, cs => (cs, [])

/-- TONE_RETIRED for each tone, in ascending tone index (log entry 48). -/
def raiseRetired : List Nat → State → State
  | [], s => s
  | i :: rest, s => raiseRetired rest (raise .line .minor .toneRetired [(i : Int)] s)

/-- The below-floor seconds and the retirements of a second boundary in SERVICE (R38). -/
def floorSeconds (s : State) : State :=
  let ms := s.tones.meas.map Meas.floorSecond
  let r := retireTones 33 ms s.tones.rxSet
  raiseRetired r.2 { s with tones.meas := ms, tones.rxSet := r.1 }

/-- What a second boundary brings in SERVICE: classification, run counters, below-floor seconds (R134, R53, R38). -/
def serviceSecond (s : State) : State :=
  let severe := severeSecond s.perf
  let t := classifySecond s
  floorSeconds { t with line := t.line.runCounters t.tones.margins t.tones.lineMargin severe }

/-- A second boundary: uptime, the interval's seconds, the back-off of WAIT and the wake window (R2, R51, R136, R188). -/
def secondEnds (s : State) : State :=
  let up := laterUptime s.time.uptime 1
  let t := { s with
    time := { s.time with uptime := up, secondDue := false, intervalDue := up % 900 == 0 }
    perf.seconds := satInc 900 s.perf.seconds
    line.backoff := if s.line.state = .wait then s.line.backoff - 1 else s.line.backoff
    supply.wakeWindow := if s.supply.state = .hold then tickDown s.supply.wakeWindow else s.supply.wakeWindow }
  if t.line.state = .service then serviceSecond t else t

/-- SECOND_BOUNDARY (R2). -/
def execSecondBoundary (s : State) : Host.Outcome State Fault Refusal := run (whenDue s.time.secondDue secondEnds) s

/-- The close at a multiple of 900: the partial flag is set when the seconds elapsed are not 900 (R136), and in an interval that a
restart began (R137), also when they are (log entry 75). -/
def intervalEnds (s : State) : State :=
  closeInterval (s.perf.seconds != 900 || s.perf.begunByRestart) { s with time.intervalDue := false }

/-- INTERVAL_CLOSE (R136). -/
def execIntervalClose (s : State) : Host.Outcome State Fault Refusal := run (whenDue s.time.intervalDue intervalEnds) s

end Sys2Proof.Machine
end

