-- ==== Sys2Proof/Machine/Training.lean ====
section
/-! DEFINITION. The training exchange (R44 to R51): the part's repeats, the exchange unit's messages, the timers of an attempt
and the entry to SERVICE. -/
namespace Sys2Proof.Machine

/-- The 200 ms repeats count 20 cycles (R44). -/
def repeatDue (s : State) : TrainMsg → Bool
  | .trainStart => s.line.state == .handshake && s.line.startRepeat == some 0
  | .rxTable => s.line.state == .tables && s.line.rxTableRepeat == some 0
  | .tablesReady => s.line.state == .tables && s.line.readyRepeat == some 0

/-- A training message is sent, and its repeat runs afresh (R44). -/
def sendTraining (m : TrainMsg) (s : State) : State :=
  match m with
  | .trainStart => { s with framer.trainOut := trainStart s, line.startRepeat := some 20 }
  | .rxTable => { s with framer.trainOut := rxTable s, line.rxTableRepeat := some 20 }
  | .tablesReady => { s with framer.trainOut := tablesReady, line.readyRepeat := some 20 }

/-- TRAINING_REPEAT (R44). -/
def execTrainingRepeat (m : TrainMsg) (s : State) : Host.Outcome State Fault Refusal :=
  run (whenDue (repeatDue s m) (sendTraining m)) s

/-- A TRAIN_REPLY in HANDSHAKE (R45): the count is loaded; a probe start 4..64 ahead of it is accepted. -/
def takeReply (credit count probeStart : Nat) (s : State) : State :=
  let t := { s with time.cycleCount := count % 256 }
  if swapAhead probeStart (count % 256) then
    { t with
      tones.credit := min credit 24
      line := { t.line with handshakeTimer := none, startRepeat := none, probeStart := some (probeStart % 256) } }
  else t

/-- TRAIN_REPLY (R44, R45): ignored when its kind, length or check is wrong, outside HANDSHAKE, and after one has been
accepted. -/
def execTrainReply (kind : Byte) (length content check : List Byte) (s : State) : Host.Outcome State Fault Refusal :=
  run (fun s =>
    match trainingContent 0x02#8 ([kind] ++ length ++ content ++ check) with
    | some [credit, count, probeStart] =>
      whenDue (s.line.state == .handshake && s.line.probeStart.isNone)
        (takeReply credit.toNat count.toNat probeStart.toNat) s
    | _ => s) s

/-- HANDSHAKE_TIMER_EXPIRY (R45, R50). -/
def execHandshakeTimerExpiry (s : State) : Host.Outcome State Fault Refusal :=
  run (whenDue (s.line.state == .handshake && s.line.handshakeTimer == some 0) (failAttempt .handshakeTimeout)) s

/-- Entry to PROBE (R45, R46). -/
def enterProbe (s : State) : State :=
  { s with
    line := { s.line with state := .probe, probeStart := none, probeTimer := some 200, probeSampled := false }
    framer.lineOut := .probe }

/-- PROBE_START (R45): the boundary at which the count is the probe start. -/
def execProbeStart (s : State) : Host.Outcome State Fault Refusal :=
  run (whenDue (s.line.state == .handshake && s.atBoundary && s.line.probeStart == some s.time.cycleCount)
    enterProbe) s

/-- The end of PROBE (R46, R47): TABLES with its timer and its training pass, or LINE_TOO_WEAK. -/
def leaveProbe (s : State) : State :=
  if s.line.probeSampled then
    requestPass true { s with
      line := { s.line with
        state := .tables, probeTimer := none, tablesTimer := some 500, passStarted := s.loader.running.isNone }
      framer.lineOut := .training }
  else failAttempt .lineTooWeak s

/-- PROBE_END (R46). -/
def execProbeEnd (s : State) : Host.Outcome State Fault Refusal :=
  run (whenDue (s.line.state == .probe && s.atBoundary && s.line.probeTimer == some 0) leaveProbe) s

/-- TABLES_READY is first sent when RX_TABLE has been sent and TX_TABLE has been taken (R48), after what the same step has
sent before it. -/
def readyWhenBoth (before : List Byte) (s : State) : State :=
  if s.line.rxTableSent ∧ s.line.txTableTaken ∧ !s.line.readySent then
    let t := sendTraining .tablesReady { s with line.readySent := true }
    { t with framer.trainOut := before ++ t.framer.trainOut }
  else s

/-- The entries a table gives for the tones 6..31. -/
def ownEntries (first : Nat) (tones : List (Nat × Int)) : List (Nat × Int) := (tones.drop (6 - first)).take 26

/-- The five checks of R48: an entry for every tone 6..31, legal bits and gains throughout, and the caps, the gain sum and
the bit total of the bank those entries make (log entry 54). -/
def txTableValid (s : State) (first : Nat) (tones : List (Nat × Int)) : Bool :=
  let own := ownEntries first tones
  first ≤ 6 && 32 ≤ first + tones.length && tones.all (fun t => legalBits t.1) && bankBitsAllowed s.tones.txSet own
    && tones.all (fun t => legalGain t.2) && gainSum (toBank own) ≤ 0 && 24 ≤ bitTotal (toBank own)

/-- The first TX_TABLE of the attempt (R48). -/
def takeTxTable (first : Nat) (tones : List (Nat × Int)) (s : State) : State :=
  if txTableValid s first tones then
    readyWhenBoth [] { s with tones.txA := toBank (ownEntries first tones), line.txTableTaken := true }
  else failAttempt .txInvalid s

/-- TX_TABLE (R44, R48): ignored when its kind, length or check is wrong, outside TABLES, and after one has been taken. -/
def execTxTable (header content check : List Byte) (s : State) : Host.Outcome State Fault Refusal :=
  run (fun s =>
    match (trainingContent 0x04#8 (header ++ content ++ check)).bind readToneTable with
    | some ((first, tones), []) =>
      whenDue (s.line.state == .tables && !s.line.txTableTaken) (takeTxTable first tones) s
    | _ => s) s

/-- An ENTRY with a count 4..64 ahead is accepted (R49). -/
def acceptEntry (count : Nat) (s : State) : State :=
  { s with line := { s.line with
    tablesTimer := none, rxTableRepeat := none, readyRepeat := none, entryCount := some (count % 256) } }

/-- ENTRY (R44, R49). -/
def execEntry (body check : List Byte) (s : State) : Host.Outcome State Fault Refusal :=
  run (fun s =>
    match trainingContent 0x06#8 (body ++ check) with
    | some [count] =>
      whenDue (s.line.state == .tables && s.line.readySent && s.line.entryCount.isNone
        && swapAhead count.toNat s.time.cycleCount) (acceptEntry count.toNat) s
    | _ => s) s

/-- TABLES_TIMER_EXPIRY (R49, R50). -/
def execTablesTimerExpiry (s : State) : Host.Outcome State Fault Refusal :=
  run (whenDue (s.line.state == .tables && s.line.tablesTimer == some 0) (failAttempt .tablesTimeout)) s

/-! ## Entry to SERVICE (R49) -/

/-- The line record at the entry: the attempt is over, every count 0, the hold flags as R49 gives. -/
def Line.inService (l : Line) : Line :=
  { Line.reset with
    state := .service, enabled := l.enabled, lastLoss := l.lastLoss, backoff := l.backoff, rxHold := l.passHold }

/-- Bank A active in both directions, S following the gains of RX from 0 (R23, R49). -/
def Tones.inService (t : Tones) : Tones :=
  { t with
    rxActive := .a
    txActive := .a
    meas := followGains t.meas (List.replicate 223 0) (gainsOf t.rxA) }

/-- The tracker at an entry to SERVICE (R70), with no impulse symbol judged since (R69). -/
def Impulse.inService (i : Impulse) : Impulse :=
  { i with
    lastImpulse := none, state := .search, reference := none, p := 0, matchCount := 0, missCount := 0
    prediction := none, tail := none }

/-- A port in NO_SERVICE with its wake mark is seized (R89). -/
def seizeMarked (p : Port) (s : State) : State :=
  let r := s.port p
  if r.state = .noService ∧ r.wakeMark then requestCall p (onPort p PortRec.settled s) else s

def clearMark (r : PortRec) : PortRec := { r with wakeMark := false }

/-- The entry boundary (R49); the two automatic seizures are made in either order (R89). -/
def enterService (port2First : Bool) (s : State) : State :=
  let t := recompute { s with
    line := s.line.inService
    tones := s.tones.inService
    impulse := s.impulse.inService
    framer := { s.framer with hunting := false, window := [], up := .boundary }
    tester.autoPending := false }
  let t := raise .line .info .serviceUp [(t.framer.rx.b : Int), (t.framer.tx.b : Int)] (emptySecond t)
  let t := if port2First then seizeMarked .p1 (seizeMarked .p2 t) else seizeMarked .p2 (seizeMarked .p1 t)
  fillRooms 16 (onPorts clearMark t)

/-- SERVICE_ENTRY (R49). -/
def execServiceEntry (port2First : Bool) (s : State) : Host.Outcome State Fault Refusal :=
  run (whenDue (s.line.state == .tables && s.atBoundary && s.line.entryCount == some s.time.cycleCount)
    (enterService port2First)) s

/-- BACKOFF_EXPIRY (R51). -/
def execBackoffExpiry (s : State) : Host.Outcome State Fault Refusal :=
  run (whenDue (s.line.state == .wait && s.line.backoff == 0) enterHandshake) s

end Sys2Proof.Machine
end

