-- ==== Sys2Proof/Machine/Holding.lean ====
section
/-! DEFINITION. Holding the line in SERVICE: the triggers that leave it (R52 to R54), the loading pass's result (R27 to R31), RX
and TX rate shifts (R56 to R62) and RX and TX tone swaps (R36, R37). -/
namespace Sys2Proof.Machine

/-! ## Triggers (R52 to R54) -/

/-- NO_SIGNAL_TIMEOUT (R52). -/
def execNoSignalTimeout (s : State) : Host.Outcome State Fault Refusal :=
  run (whenDue (s.line.state == .service && 50 ≤ s.line.losTimer) (leaveService .noSignal .wait)) s

/-- RETRAIN_SECONDS_TRIGGER (R54). -/
def execRetrainSecondsTrigger (s : State) : Host.Outcome State Fault Refusal :=
  run (whenDue (s.line.state == .service && 2 ≤ s.line.retrainSeconds) (leaveService .lowMargin .wait)) s

/-- SEVERE_SECONDS_TRIGGER (R54). -/
def execSevereSecondsTrigger (s : State) : Host.Outcome State Fault Refusal :=
  run (whenDue (s.line.state == .service && 10 ≤ s.line.severeSeconds) (leaveService .severeSeconds .wait)) s

/-! ## RX rate shifts (R56 to R60) -/

/-- An RX shift starts (R57): the record, and a rate-shift pass into the standby RX bank. -/
def startShift (k : ShiftKind) (s : State) : State :=
  requestPass false { s with
    shifts.rx := { s.shifts.rx with
      phase := .pass, kind := k, oldB := bitTotal (s.tones.active .rx)
      supplyPending := if k = .supply then false else s.shifts.rx.supplyPending }
    line.highSeconds := if k = .up then 0 else s.line.highSeconds }

/-- RX_SHIFT_START (R57); at the boundary at which the swap in flight is written too, once RX_SWAP_APPLIED has been taken (log
entry 72). -/
def execRxShiftStart (s : State) : Host.Outcome State Fault Refusal :=
  run (whenDue (s.line.state == .service && s.atBoundary) fun s =>
    match shiftKindDue s.time.uptime s.line s.shifts with
    | some k => startShift k s
    | none => s) s

/-- A training pass has ended (R47): LINE_TOO_WEAK, or RX_TABLE with the pass's hold flag, and TABLES_READY behind it when the
TX_TABLE has been taken already (R48). -/
def trainingPassEnds (p : Pass) (r : PassResult) (s : State) : State :=
  if r.met then
    let t := sendTraining .rxTable { s with line := { s.line with rxTableSent := true, passHold := p.holdCeiling } }
    readyWhenBoth t.framer.trainOut t
  else failAttempt .lineTooWeak s

/-- The standby RX bank as RATE_OFFER carries it (R58). -/
def offeredTones (s : State) : List (Nat × Int) := (s.tones.standby .rx).map fun r => (r.bits, r.gain)

/-- A rate-shift pass has ended (R57); held admission requests are then judged, in either order (R106). -/
def shiftPassEnds (port2First : Bool) (p : Pass) (r : PassResult) (s : State) : State :=
  if r.met then
    let t :=
      if s.shifts.rx.kind = .up ∧ r.newB ≤ s.shifts.rx.oldB then { s with shifts.rx.phase := .idle }
      else
        offer (.rateOffer p.holdCeiling (offeredTones s))
          { s with shifts.rx := { s.shifts.rx with phase := .offered, hold := p.holdCeiling, offerWait := 200 } }
    if port2First then judgeHeld .p1 (judgeHeld .p2 t) else judgeHeld .p2 (judgeHeld .p1 t)
  else leaveService .lineTooWeak .wait s

/-- A request that waited for the pass to end starts (R27). -/
def startWaiting (s : State) : State :=
  if s.loader.waiting ∧ s.loader.running.isNone then
    let training := s.line.state == .tables
    { s with
      loader := ⟨some (passInputs training s), false⟩
      line.passStarted := s.line.passStarted || training }
  else s

/-- The running pass hands over its result (R27 to R31): the bank written, MARGIN_LOWERED for the pass that stands, and
what Line Control does with it. -/
def passEnds (port2First : Bool) (p : Pass) (s : State) : State :=
  let x := passRounds p 0 p.vFloor { s with loader.running := none }
  let r := x.2
  let t := { x.1 with tones := x.1.tones.setBank .rx p.bank r.bank }
  let t := if r.met ∧ r.mPass < p.m then raise .line .minor .marginLowered [(r.mPass : Int)] t else t
  let t :=
    if p.ignored then t
    else if p.training then trainingPassEnds p r t
    else shiftPassEnds port2First p r t
  startWaiting t

/-- LOADING_PASS_DONE (R27). -/
def execLoadingPassDone (port2First : Bool) (s : State) : Host.Outcome State Fault Refusal :=
  run (fun s =>
    match s.loader.running with
    | some p => passEnds port2First p s
    | none => s) s

/-- A failed shift (R58, R60). -/
def failShift (s : State) : State :=
  let t := { s with shifts.rx.phase := .idle }
  if s.shifts.rx.kind = .supply then leaveService .shiftFailed .wait t
  else { t with shifts.rx.holdOff := some (laterUptime s.time.uptime 30) }

def isRateOffer : Msg → Bool
  | .rateOffer .. => true
  | _ => false

/-- The offer wait has ended (R58). -/
def offerTimesOut (s : State) : State :=
  failShift (if unsent isRateOffer s then withdraw isRateOffer s else offer .rateWithdraw s)

/-- RATE_OFFER_TIMEOUT (R58). -/
def execRateOfferTimeout (s : State) : Host.Outcome State Fault Refusal :=
  run (whenDue (s.line.state == .service && s.shifts.rx.phase == .offered && s.shifts.rx.offerWait == 0)
    offerTimesOut) s

/-- A received RATE_ACCEPT by phase (R58). A count that is not 4..64 ahead fails the shift; an own RATE_OFFER that has not
begun transmission by then stays in the overhead queue (log entry 42). -/
def takeAccept (count : Nat) (s : State) : State :=
  match s.shifts.rx.phase with
  | .offered =>
    if swapAhead count s.time.cycleCount then
      { s with shifts.rx := { s.shifts.rx with phase := .agreed, swapCount := count % 256 } }
    else failShift (offer .rateWithdraw s)
  | .idle | .pass => offer .rateWithdraw s
  | .agreed => s

/-- RATE_ACCEPT (R58). -/
def execRateAccept (count : Nat) (s : State) : Host.Outcome State Fault Refusal :=
  run (whenDue (s.line.state == .service) (takeAccept count)) s

/-- A received RATE_DECLINE (R58): only an offered shift fails by it; the reason carried changes nothing. An own RATE_OFFER
that has not begun transmission by then stays in the overhead queue (log entry 42). -/
def takeDecline (_reason : Nat) (s : State) : State :=
  if s.shifts.rx.phase = .offered then failShift s else s

/-- RATE_DECLINE (R58). -/
def execRateDecline (reason : Nat) (s : State) : Host.Outcome State Fault Refusal :=
  run (whenDue (s.line.state == .service) (takeDecline reason)) s

/-- The counter and the notice of an applied shift (R59, R62). -/
def reportShift (d : Dir) (oldB newB : Nat) (s : State) : State :=
  let t := if newB < oldB then count .shiftsDown s else if oldB < newB then count .shiftsUp s else s
  raise .line .info .rateShifted [(d.code : Int), (oldB : Int), (newB : Int)] t

/-- The standby bank of a direction becomes active and the active one standby. -/
def Tones.exchange (t : Tones) (d : Dir) : Tones := t.setActive d (otherBank (t.activeId d))

/-- The agreed RX shift is applied (R59). -/
def applyRxShift (s : State) : State :=
  let x := s.shifts.rx
  let newB := bitTotal (s.tones.standby .rx)
  let t := recompute { s with
    tones := { s.tones.exchange .rx with
      meas := followGains s.tones.meas (gainsOf (s.tones.active .rx)) (gainsOf (s.tones.standby .rx)) }
    line := { s.line with lowSeconds := 0, highSeconds := 0, rxHold := x.hold }
    shifts.rx := { x with phase := .idle } }
  reportShift .rx x.oldB newB t

/-- RX_SHIFT_APPLIED (R59). -/
def execRxShiftApplied (s : State) : Host.Outcome State Fault Refusal :=
  run (whenDue (s.line.state == .service && s.atBoundary && s.shifts.rx.phase == .agreed
    && s.shifts.rx.swapCount == s.time.cycleCount) applyRxShift) s

/-! ## TX rate shifts (R61, R62) -/

/-- ORDER_REJECTED (R142): direction, message kind, reason. -/
def rejectOrder (d : Dir) (kind reason : Nat) (s : State) : State :=
  raise .line .minor .orderRejected [(d.code : Int), (kind : Int), (reason : Int)] s

/-- The first check of R61 that fails, as its reason's number (R199); 0 when all pass. -/
def offerFault (dir : Dir) (count first : Nat) (tones : List (Nat × Int)) (s : State) : Nat :=
  if dir ≠ .tx then 1
  else if s.shifts.tx.isSome ∨ s.shifts.txSwap.isSome then 2
  else if !coversTx first tones then 3
  else if !bankBitsAllowed s.tones.txSet tones then 4
  else if !tones.all (fun t => legalGain t.2) then 5
  else if 0 < gainSum (toBank tones) then 6
  else if bitTotal (toBank tones) < 8 + 16 * s.slots.inUse then 7
  else if !swapAhead count s.time.cycleCount then 8
  else 0

/-- A received RATE_OFFER is checked and answered (R61). -/
def takeOffer (dir : Dir) (count : Nat) (hold : Bool) (first : Nat) (tones : List (Nat × Int)) (s : State) : State :=
  let why := offerFault dir count first tones s
  if why = 0 then
    offer (.rateAccept (count % 256)) { s with
      tones := s.tones.setBank .tx (otherBank s.tones.txActive) (toBank tones)
      shifts.tx := some ⟨count % 256, hold, bitTotal (s.tones.active .tx)⟩ }
  else rejectOrder dir 0x11 why (offer (.rateDecline why) s)

/-- RATE_OFFER (R61). -/
def execRateOffer (dir : Dir) (count : Nat) (hold : Bool) (first : Nat) (tones : List (Nat × Int)) (s : State) :
    Host.Outcome State Fault Refusal :=
  run (whenDue (s.line.state == .service) (takeOffer dir count hold first tones)) s

/-- A received RATE_WITHDRAW cancels an agreed TX shift (R62). -/
def takeWithdraw (s : State) : State := { s with shifts.tx := none }

/-- RATE_WITHDRAW (R62). -/
def execRateWithdraw (s : State) : Host.Outcome State Fault Refusal :=
  run (whenDue (s.line.state == .service) takeWithdraw) s

/-- The agreed TX shift is applied (R62). -/
def applyTxShift (x : TxShift) (s : State) : State :=
  let newB := bitTotal (s.tones.standby .tx)
  let t := recompute { s with tones := s.tones.exchange .tx, line.txHold := x.hold, shifts.tx := none }
  reportShift .tx x.oldB newB t

/-- TX_SHIFT_APPLIED (R62). -/
def execTxShiftApplied (s : State) : Host.Outcome State Fault Refusal :=
  run (whenDue (s.line.state == .service && s.atBoundary) fun s =>
    match s.shifts.tx with
    | some x => if x.swapCount = s.time.cycleCount then applyTxShift x s else s
    | none => s) s

/-! ## Tone swaps (R36, R37) -/

/-- No tone is named twice. -/
def distinctTones : List SwapEntry → Bool
  | [] => true
  | e :: rest => rest.all (fun x => x.tone != e.tone) && distinctTones rest

/-- The first check of R37 that fails, as its reason's number; 0 when all pass. -/
def swapFault (dir : Dir) (count : Nat) (es : List SwapEntry) (s : State) : Nat :=
  let bank := s.tones.active .tx
  if dir ≠ .tx then 1
  else if s.shifts.txSwap.isSome ∨ s.shifts.tx.isSome then 2
  else if !distinctTones es then 3
  else if !es.all (fun e => inDir .tx e.tone) then 4
  else if !es.all (fun e => bitsAllowed s.tones.txSet e.tone e.bits) then 5
  else if !es.all (fun e => legalGain e.gain) then 6
  else if bitTotal (writeEntries .tx bank es) ≠ bitTotal bank then 7
  else if 0 < gainSum (writeEntries .tx bank es) then 8
  else if !swapAhead count s.time.cycleCount then 9
  else 0

/-- A received SWAP_ORDER is checked and answered (R37). -/
def takeSwapOrder (dir : Dir) (count : Nat) (es : List SwapEntry) (s : State) : State :=
  let why := swapFault dir count es s
  if why = 0 then offer .swapAck { s with shifts.txSwap := some ⟨es, count % 256⟩ }
  else rejectOrder dir 0x15 why (offer (.swapReject why) s)

/-- SWAP_ORDER (R37). -/
def execSwapOrder (dir : Dir) (count : Nat) (es : List SwapEntry) (s : State) : Host.Outcome State Fault Refusal :=
  run (whenDue (s.line.state == .service) (takeSwapOrder dir count es)) s

/-- A received SWAP_ACK for the swap in flight (R36). -/
def takeSwapAck (s : State) : State :=
  match s.shifts.rxSwap with
  | some w => if w.acked then s else { s with shifts.rxSwap := some { w with acked := true, wait := none } }
  | none => s

/-- SWAP_ACK (R36). -/
def execSwapAck (s : State) : Host.Outcome State Fault Refusal :=
  run (whenDue (s.line.state == .service) takeSwapAck) s

/-- A tone is put under a retry hold for 10 s (R36). -/
def holdTone (tone : Nat) (s : State) : State :=
  { s with shifts.held :=
      s.shifts.held.filter (fun h => h.1 != tone) ++ [(tone, laterUptime s.time.uptime 10)] }

/-- A received SWAP_REJECT abandons the order; its weak tone is held, unless the end of the wait has put it under a hold
already (R36). The reason carried changes nothing. A SWAP_ORDER that has not begun transmission by then stays in the overhead
queue (log entry 42). -/
def takeSwapReject (_reason : Nat) (s : State) : State :=
  match s.shifts.rxSwap with
  | some w =>
    if w.acked then s
    else
      let t := { s with shifts.rxSwap := none }
      if w.wait.isSome then holdTone w.weak t else t
  | none => s

/-- SWAP_REJECT (R36). -/
def execSwapReject (reason : Nat) (s : State) : Host.Outcome State Fault Refusal :=
  run (whenDue (s.line.state == .service) (takeSwapReject reason)) s

/-- The entries of a swap are written into the active bank of a direction, and S follows RX gains (R36, R37, R23). -/
def writeSwap (d : Dir) (es : List SwapEntry) (s : State) : State :=
  let old := s.tones.active d
  let new := writeEntries d old es
  let t := s.tones.setBank d (s.tones.activeId d) new
  count .toneSwaps (recompute { s with
    tones := match d with
      | .rx => { t with meas := followGains t.meas (gainsOf old) (gainsOf new) }
      | .tx => t })

/-- RX_SWAP_APPLIED (R36). -/
def execRxSwapApplied (s : State) : Host.Outcome State Fault Refusal :=
  run (whenDue (s.line.state == .service && s.atBoundary) fun s =>
    match s.shifts.rxSwap with
    | some w => if w.due then writeSwap .rx w.entries { s with shifts.rxSwap := none } else s
    | none => s) s

/-- TX_SWAP_APPLIED (R37). -/
def execTxSwapApplied (s : State) : Host.Outcome State Fault Refusal :=
  run (whenDue (s.line.state == .service && s.atBoundary) fun s =>
    match s.shifts.txSwap with
    | some w => if w.swapCount = s.time.cycleCount then writeSwap .tx w.entries { s with shifts.txSwap := none } else s
    | none => s) s

/-- The 1 s wait of the swap in flight has ended without an answer (R36). -/
def swapWaitEnds (s : State) : State :=
  match s.shifts.rxSwap with
  | some w =>
    if w.wait = some 0 then holdTone w.weak { s with shifts.rxSwap := some { w with wait := none } } else s
  | none => s

/-- SWAP_WAIT_EXPIRY (R36). -/
def execSwapWaitExpiry (s : State) : Host.Outcome State Fault Refusal := run swapWaitEnds s

/-- The hold on this tone has reached its end. -/
def holdOver (s : State) (tone : Nat) : Bool :=
  s.shifts.held.any fun h => h.1 == tone && reached s.time.uptime h.2

/-- A retry hold ends; an order of this weak tone still unanswered is abandoned (R36), its SWAP_ORDER left in the overhead queue
if it is still there (log entry 42). -/
def holdEnds (tone : Nat) (s : State) : State :=
  { s with
    shifts.held := s.shifts.held.filter fun h => h.1 != tone
    shifts.rxSwap := s.shifts.rxSwap.filter fun w => !(w.weak == tone && !w.acked && w.wait.isNone) }

/-- TONE_HOLD_EXPIRY (R36). -/
def execToneHoldExpiry (tone : Nat) (s : State) : Host.Outcome State Fault Refusal :=
  run (whenDue (holdOver s tone) (holdEnds tone)) s

end Sys2Proof.Machine
end

