-- ==== Sys2Proof/Machine/ImpulseCmds.lean ====
section
/-! DEFINITION. The Impulse Tracker: positions, events and the period tracker (R67 to R73), downstream quiet schedules (R74 to
R76), upstream ones (R77). -/
namespace Sys2Proof.Machine

/-! ## Positions (log entry 10) -/

/-- The position `n` symbols after another. -/
def posAdd (a n : Nat) : Nat := (a + n) % 4294967296

/-- How far apart two positions lie, the nearer way round. -/
def posGap (a b : Nat) : Nat := min (posSub a b) (posSub b a)

/-- Position `a` is at or after `b`. -/
def posReached (a b : Nat) : Bool := posSub a b < 2147483648

/-- The symbols from the next symbol to symbol `symbol` of the cycle `d` cycles ahead. -/
def symbolsTo (t : Time) (d symbol : Nat) : Nat := 40 * d + symbol - t.symbolNo

/-- The position that a cycle count ahead and a symbol number name. -/
def positionOf (t : Time) (cycle symbol : Nat) : Nat :=
  posAdd t.symbolCounter (symbolsTo t (ahead cycle t.cycleCount) symbol)

/-- A position at or after the next symbol as the line names it. -/
def nameOf (t : Time) (pos : Nat) : Nat × Nat :=
  let n := t.symbolNo + posSub pos t.symbolCounter
  ((t.cycleCount + n / 40) % 256, n % 40)

/-- A position falls before the next cycle boundary. -/
def beforeBoundary (t : Time) (pos : Nat) : Bool := posSub pos t.symbolCounter < 40 - t.symbolNo

/-! ## Schedules -/

/-- A schedule from its first window start. -/
def Schedule.from (period first width : Nat) : Schedule := ⟨period, first, width, first⟩

/-- The position lies in the window now open or next to come. -/
def Schedule.covers (x : Schedule) (pos : Nat) : Bool := posSub pos x.next < x.width

/-- After the symbol at a position: once the window has closed, the next one is a period later. -/
def Schedule.after (x : Schedule) (pos : Nat) : Schedule :=
  if posReached pos x.next ∧ x.width ≤ posSub pos x.next + 1 then { x with next := posAdd x.next x.period } else x

/-- The next window start after a position. -/
def Schedule.nextStart (x : Schedule) (pos : Nat) : Nat :=
  if posReached pos x.next then posAdd x.next x.period else x.next

/-- An accepted downstream schedule takes effect at its first window start (R75). -/
def Impulse.promoteDown (i : Impulse) (pos : Nat) : Impulse :=
  match i.downOut with
  | some o => if o.accepted ∧ posReached pos o.sched.first then { i with down := some o.sched, downOut := none } else i
  | none => i

/-- An accepted upstream schedule takes effect at its window start; of two with one start, the later accepted (R77). -/
def Impulse.promoteUp (i : Impulse) (pos : Nat) : Impulse :=
  let begun := i.upNext.filter fun x => posReached pos x.first
  match begun.getLast? with
  | some x => { i with up := some x, upNext := i.upNext.filter fun x => !posReached pos x.first }
  | none => i

/-- The position lies in a downstream quiet window in force (R75). -/
def Impulse.quietDown (i : Impulse) (pos : Nat) : Bool :=
  match i.down with
  | some x => x.covers pos
  | none => false

/-- The position lies in an upstream quiet window in force (R77). -/
def Impulse.quietUp (i : Impulse) (pos : Nat) : Bool :=
  match i.up with
  | some x => x.covers pos
  | none => false

/-- Both directions' windows after the symbol at a position. -/
def Impulse.pastSymbol (i : Impulse) (pos : Nat) : Impulse :=
  { i with down := i.down.map fun x => x.after pos, up := i.up.map fun x => x.after pos }

/-! ## The period tracker (R71 to R73) -/

/-- "The tolerance is floor(P/64) + 4 symbols". -/
def tolerance (p : Nat) : Nat := p / 64 + 4

def intervalMatches (p i : Nat) : Bool := i ≤ p + tolerance p && p ≤ i + tolerance p

def inRange (i : Nat) : Bool := 1600 ≤ i && i ≤ 16000

/-- LOCKED is entered (R71). -/
def Impulse.lock (i : Impulse) : Impulse :=
  { i with
    state := .locked, prediction := some i.p, tail := none, missCount := 0, exchangeCancel := false
    due := i.due || i.quietEnable }

/-- An event in SEARCH or CANDIDATE, by the table of R71. In CANDIDATE an interval that matches P takes the MATCHED row, in
range or not (log entry 49). -/
def Impulse.track (i : Impulse) (pos : Nat) : Impulse × TrackUse :=
  match i.state, i.reference with
  | .search, none => ({ i with reference := some pos }, .reference)
  | .search, some r =>
    let x := posSub pos r
    if inRange x then
      ({ i with state := .candidate, p := x, matchCount := 0, reference := some pos }, .candidate)
    else ({ i with reference := some pos }, .reset)
  | .candidate, r =>
    let x := posSub pos (r.getD 0)
    if intervalMatches i.p x then
      let t := { i with matchCount := i.matchCount + 1, reference := some pos }
      (if t.matchCount = 3 then t.lock else t, .matched)
    else if inRange x then ({ i with p := x, matchCount := 0, reference := some pos }, .candidate)
    else ({ i with state := .search, p := 0, matchCount := 0, reference := some pos }, .reset)
  | .locked, _ => (i, .stray)

/-- The symbol just judged lies in the tolerance window (R72). -/
def Impulse.inWindow (i : Impulse) : Bool :=
  match i.prediction with
  | some n => n ≤ tolerance i.p
  | none => i.tail.isSome

/-- A schedule may become due: LOCKED, quiet enable on, no exchange cancel holding (R74, R76). -/
def Impulse.mayBeDue (i : Impulse) : Bool := i.state == .locked && i.quietEnable && !i.exchangeCancel

/-- A refinement or a move of the prediction makes a schedule due (R74). -/
def Impulse.driftDue (i : Impulse) (refined : Bool) (pos : Nat) : Bool :=
  let periodOff (x : Schedule) : Bool := refined && (x.period + 4 < i.p || i.p + 4 < x.period)
  let placeOff (x : Schedule) : Bool := 4 < posGap (posAdd pos i.p) (posAdd (x.nextStart pos) 1)
  i.mayBeDue &&
    ((match i.down with
      | some x => periodOff x || placeOff x
      | none => false) ||
     (match i.downOut with
      | some o => periodOff o.sched
      | none => false))

/-- A matched event (R72). -/
def Impulse.matchEvent (i : Impulse) (pos : Nat) : Impulse :=
  let refined := i.missCount == 0
  let p := if refined then (3 * i.p + posSub pos (i.reference.getD pos)) / 4 else i.p
  let t := { i with p := p, reference := some pos, missCount := 0, tail := none, prediction := some p }
  { t with due := t.due || t.driftDue refined pos }

/-- An event in any tracker state, and what the tracker did with it (R71, R72). -/
def Impulse.event (i : Impulse) (pos : Nat) : Impulse × TrackUse :=
  if i.state = .locked then (if i.inWindow then (i.matchEvent pos, .matched) else (i, .stray)) else i.track pos

/-- An impulse event (R69): counted, tracked and kept in the history; IMPULSE_LOCKED when the tracker locks (R71). -/
def takeEvent (pos : Nat) (inside : Bool) (s : State) : State :=
  let r := s.impulse.event pos
  let e : ImpulseEvent := ⟨pos, s.time.cycleCount, s.time.symbolNo, 1, inside, r.2⟩
  let t := count .impulseEvents { s with impulse := { r.1 with history := (e :: r.1.history).take 8 } }
  if s.impulse.state ≠ .locked ∧ r.1.state = .locked then raise .impulse .minor .impulseLocked [(r.1.p : Int)] t else t

/-- The newest event's run reaches the symbol at a position (R69). -/
def growRun (pos : Nat) : List ImpulseEvent → List ImpulseEvent
  | [] => []
  | e :: rest => { e with run := min 65535 (posSub pos e.position + 1) } :: rest

/-- The impulse symbol comes more than 8 symbols after the last one (R69). -/
def opensEvent (i : Impulse) (pos : Nat) : Bool :=
  match i.lastImpulse with
  | none => true
  | some l => 8 < posSub pos l

/-- An impulse symbol at a position, inside or outside a quiet window (R68, R69). -/
def takeImpulse (pos : Nat) (inside : Bool) (s : State) : State :=
  let t := if inside then s else { s with perf.outside := satInc 4000 s.perf.outside }
  let t := if opensEvent s.impulse pos then takeEvent pos inside t
    else { t with impulse := { t.impulse with history := growRun pos t.impulse.history } }
  { t with impulse := { t.impulse with lastImpulse := some pos } }

/-- PREDICTION_TIMER_EXPIRY (R72): the window tail starts from the tolerance. -/
def execPredictionTimerExpiry (s : State) : Host.Outcome State Fault Refusal :=
  run (whenDue (s.line.state == .service && s.impulse.state == .locked && s.impulse.prediction == some 0) fun s =>
    { s with impulse := { s.impulse with prediction := none, tail := some (tolerance s.impulse.p) } }) s

/-! ## Cancelling downstream windows (R76) -/

def isQuietSchedule : Msg → Bool
  | .quietSchedule .. => true
  | _ => false

/-- The outstanding schedule is withdrawn: taken back when it has not begun transmission; otherwise, or when `inForce`
names a schedule in force, QUIET_CANCEL follows it (R76). The due flag is cleared, also on a cancel of the exchange unit (log
entry 50). -/
def withdrawSchedule (inForce : Bool) (s : State) : State :=
  let t := { s with impulse := { s.impulse with due := false } }
  let t :=
    if t.impulse.downOut.isSome ∧ unsent isQuietSchedule t then
      withdraw isQuietSchedule { t with impulse := { t.impulse with downOut := none } }
    else t
  if inForce || t.impulse.downOut.isSome then offer .quietCancel t else t

/-- The downstream schedule is cancelled (R76). -/
def cancelDown (s : State) : State := withdrawSchedule s.impulse.down.isSome s

/-- The downstream windows end at the next cycle boundary: an accepted schedule that begins only then or later is dropped
(R76). -/
def endDownWindows (s : State) : State :=
  { s with impulse := { s.impulse with
    downEnding := true
    downOut := s.impulse.downOut.filter fun o => !o.accepted || beforeBoundary s.time o.sched.first } }

/-- A miss, or the loss of the lock at the third (R73). -/
def windowCloses (s : State) : State :=
  let i := s.impulse
  if i.missCount + 1 < 3 then
    { s with impulse := { i with
      missCount := i.missCount + 1, tail := none, prediction := some (i.p - tolerance i.p) } }
  else
    let t := { s with impulse := { i with
      state := .search, reference := none, p := 0, matchCount := 0, missCount := 0, prediction := none, tail := none } }
    cancelDown (raise .impulse .minor .impulseLost [(i.p : Int)] t)

/-- WINDOW_TAIL_EXPIRY (R73). -/
def execWindowTailExpiry (s : State) : Host.Outcome State Fault Refusal :=
  run (whenDue (s.line.state == .service && s.impulse.state == .locked && s.impulse.tail == some 0) windowCloses) s

/-! ## Offering a downstream schedule (R74, R75) -/

/-- The first position at or after the next symbol that lies a whole number of periods after the reference (R72: "the
reference plus P, or, after misses, the last predicted position plus P"). -/
def periodAhead (now reference p : Nat) : Nat :=
  posAdd reference (p * (posSub (posSub now 1) reference / p + 1))

/-- The next predicted position in LOCKED: the one the prediction timer runs to, and, once it has been reached or the timer
is stopped (R70), the next on the grid of the reference and P (log entry 51). -/
def nextPredicted (s : State) : Option Nat :=
  match s.impulse.prediction with
  | some (n + 1) => some (posAdd (posSub s.time.symbolCounter 1) (n + 1))
  | some 0 | none => s.impulse.reference.map fun r => periodAhead s.time.symbolCounter r s.impulse.p

/-- The first window start of the schedule to be made: "the next predicted position minus 1" (R74). -/
def scheduleStart (s : State) : Option Nat := (nextPredicted s).map fun x => posSub x 1

/-- A due schedule whose window start lies 16..32 cycles ahead is offered (R74). -/
def offerSchedule (s : State) : State :=
  match scheduleStart s with
  | none => s
  | some start =>
    let d := posSub start s.time.symbolCounter / 40
    if 16 ≤ d ∧ d ≤ 32 then
      let name := nameOf s.time start
      let i := s.impulse
      offer (.quietSchedule i.p name.1 name.2 i.width) { s with impulse := { i with
        due := false, downOut := some ⟨Schedule.from i.p start i.width, name.1, name.2, false⟩ } }
    else s

/-- QUIET_SCHEDULE_OFFER (R74). -/
def execQuietScheduleOffer (s : State) : Host.Outcome State Fault Refusal :=
  run (whenDue (s.line.state == .service && s.atBoundary && s.impulse.due && s.impulse.downOut.isNone
    && s.impulse.state == .locked) offerSchedule) s

/-- The last byte of QUIET_SCHEDULE was carried in cycle `c`: the schedule is accepted, or void and due again (R75). -/
def scheduleSent (c : Nat) (s : State) : State :=
  match s.impulse.downOut with
  | none => s
  | some o =>
    let d := ahead o.cycle c
    if 1 ≤ d ∧ d ≤ 64 then { s with impulse := { s.impulse with downOut := some { o with accepted := true } } }
    else { s with impulse := { s.impulse with downOut := none, due := s.impulse.due || s.impulse.mayBeDue } }

/-! ## Messages of the exchange unit (R76, R77) -/

/-- The first check of R77 that fails, as its reason's number; 0 when all pass. -/
def scheduleFault (dir : Dir) (period cycle width : Nat) (s : State) : Nat :=
  let d := ahead cycle s.time.cycleCount
  if dir ≠ .tx then 1
  else if period < 1600 ∨ 16000 < period then 2
  else if width < 1 ∨ 4 < width then 3
  else if d < 1 ∨ 64 < d then 4
  else 0

/-- A received QUIET_SCHEDULE (R77). -/
def takeSchedule (dir : Dir) (period cycle symbol width : Nat) (s : State) : State :=
  let why := scheduleFault dir period cycle width s
  if why = 0 then
    { s with impulse := { s.impulse with
      upNext := s.impulse.upNext ++ [Schedule.from period (positionOf s.time cycle symbol) width] } }
  else rejectOrder dir 0x18 why s

/-- QUIET_SCHEDULE (R77). -/
def execQuietSchedule (dir : Dir) (period cycle symbol width : Nat) (s : State) : Host.Outcome State Fault Refusal :=
  run (whenDue (s.line.state == .service) (takeSchedule dir period cycle symbol width)) s

/-- A received QUIET_CANCEL (R76, R77). One for upstream is discarded when no upstream schedule is in force; an accepted one
is in force from its window start (log entry 52). -/
def takeCancel (dir : Dir) (s : State) : State :=
  match dir with
  | .rx =>
    endDownWindows (withdrawSchedule false { s with impulse := { s.impulse with exchangeCancel := true } })
  | .tx =>
    if s.impulse.up.isNone then s
    else { s with impulse := { s.impulse with
      upEnding := true, upNext := s.impulse.upNext.filter fun x => beforeBoundary s.time x.first } }

/-- QUIET_CANCEL (R76, R77). -/
def execQuietCancel (dir : Dir) (s : State) : Host.Outcome State Fault Refusal :=
  run (whenDue (s.line.state == .service) (takeCancel dir)) s

end Sys2Proof.Machine
end

