-- ==== Sys2Proof/Machine/HandsetCmds.lean ====
section
/-! DEFINITION. The events of the handset ports: loop sensing and break timing (R81, R82), digits (R83), tones (R90), cadence
phases (R94) and the ring limit (R98). A command that names the end of a millisecond timer comes with the local timebase at
that end (log entry 3). -/
namespace Sys2Proof.Machine

/-! ## Loop events by port state -/

/-- An off-hook is handed to the port state (R86, R97, R99). -/
def handOffHook (p : Port) (s : State) : State :=
  match (s.port p).state with
  | .idle => offHookInIdle p s
  | .ringing => ringTrip p s
  | _ => s

/-- The port collects digits: in every state but those that ignore a pulse (R90: REFUSED, NO_SERVICE, SILENT; R99: DISABLED,
TESTING). An IDLE or RINGING port whose loop is off-hook counts too (R83); its digits are then ignored (R84). -/
def PortRec.dials (r : PortRec) : Bool :=
  match r.state with
  | .idle | .seizing | .connected | .ringing => true
  | .refused | .noService | .silent | .testing | .disabled => false

/-- A pulse is counted, and the make timer starts afresh (R83). -/
def PortRec.pulse (r : PortRec) : PortRec :=
  if r.dials then { r with pulses := satInc 11 r.pulses, make := some 0, makeLimit := r.timing.make } else r

/-- A digit in progress is complete when a break was no pulse (R83). -/
def completeIfAny (p : Port) (s : State) : State := if 0 < (s.port p).pulses then completeDigit p s else s

/-- A flash is handed to the port state after the digit it has completed (R83, R84). -/
def takeFlash (p : Port) (s : State) : State := handItem p .flash (completeIfAny p s)

/-- The break is decided on-hook: the loop state, and the on-hook handed to the port state (R82). -/
def goOnHook (p : Port) (s : State) : State :=
  portOnHook p (onPort p (fun r => { r with loop := .onHook, brk := none }) (completeIfAny p s))

/-- A break ends with the loop confirmed closed (R82); one longer than the flash limit is on-hook, and the closing is then
a new off-hook. -/
def breakEnds (p : Port) (s : State) : State :=
  let r := s.port p
  let n := r.brk.getD 0
  let closed := onPort p (fun x => { x with loop := .offHook, brk := none, debounce := none }) s
  if n ≤ r.breakPulse then onPort p PortRec.pulse closed
  else if n ≤ r.breakFlash then takeFlash p closed
  else handOffHook p (onPort p (fun x => { x with loop := .offHook, debounce := none }) (goOnHook p s))

/-- The start of a break (R81): its limits are those in force now (R82), and a running make timer stops. -/
def PortRec.startBreak (r : PortRec) : PortRec :=
  { r with
    loop := .brk, debounce := none, brk := some 0, make := none
    breakPulse := r.timing.pulse, breakFlash := r.timing.flash }

/-- A change of the loop input is confirmed (R81). -/
def confirmLoop (p : Port) (s : State) : State :=
  match (s.port p).loop with
  | .onHook => handOffHook p (onPort p (fun r => { r with loop := .offHook, debounce := none }) s)
  | .offHook => onPort p PortRec.startBreak s
  | .brk => breakEnds p s

/-! ## Commands -/

/-- The input shows a level: the debounce timer starts or stops (R81). -/
def PortRec.sense (closed : Bool) (r : PortRec) : PortRec :=
  { r with closed := closed, debounce := if closed = r.level then none else some (r.debounce.getD 0) }

/-- LOOP_SENSE_CHANGE (R81), `elapsed` ms after the last event of the local timebase. -/
def execLoopSenseChange (port : Port) (closed : Bool) (elapsed : Nat) (s : State) : Host.Outcome State Fault Refusal :=
  run (fun s => onPort port (PortRec.sense closed) (advanceMs elapsed s)) s

/-- DEBOUNCE_EXPIRY (R81). -/
def execDebounceExpiry (port : Port) (s : State) : Host.Outcome State Fault Refusal :=
  run (whenDue ((s.port port).closed != (s.port port).level) fun s =>
    confirmLoop port (advanceTo (20 - (s.port port).debounce.getD 0) s)) s

/-- BREAK_PULSE_LIMIT_PASSED (R83). -/
def execBreakPulseLimitPassed (port : Port) (s : State) : Host.Outcome State Fault Refusal :=
  run (whenDue ((s.port port).loop == .brk && 0 < (s.port port).pulses) fun s =>
    completeDigit port (advanceTo ((s.port port).breakPulse + 1 - (s.port port).brk.getD 0) s)) s

/-- BREAK_TIMER_EXPIRY (R82). -/
def execBreakTimerExpiry (port : Port) (s : State) : Host.Outcome State Fault Refusal :=
  run (whenDue ((s.port port).loop == .brk) fun s =>
    goOnHook port (advanceTo ((s.port port).breakFlash + 1 - (s.port port).brk.getD 0) s)) s

/-- MAKE_TIMER_EXPIRY (R83). -/
def execMakeTimerExpiry (port : Port) (s : State) : Host.Outcome State Fault Refusal :=
  run (whenDue (s.port port).make.isSome fun s =>
    completeDigit port (advanceTo ((s.port port).makeLimit - (s.port port).make.getD 0) s)) s

/-- The port plays a local tone whose timer has ended (R90). -/
def PortRec.toneOver (r : PortRec) : Bool :=
  (r.state == .refused || r.state == .noService) && r.toneTimer == some 0

/-- TONE_TIMER_EXPIRY (R90). -/
def execToneTimerExpiry (port : Port) (s : State) : Host.Outcome State Fault Refusal :=
  run (whenDue (s.port port).toneOver (onPort port PortRec.toSilent)) s

/-- CADENCE_PHASE_END (R94, R95): every phase that ends at this boundary. A first on-phase is none of its business: an order
accepted since the boundary begins at the next one (R93). -/
def execCadencePhaseEnd (s : State) : Host.Outcome State Fault Refusal :=
  run (whenDue (s.handset.p1.phaseEndDue || s.handset.p2.phaseEndDue) endPhases) s

/-- The port rings for this order and its ring limit has been reached (R98). -/
def PortRec.ringOver (order : Nat) (r : PortRec) : Bool :=
  r.state == .ringing && r.order == some order && r.ringTimer == some 0

/-- An unanswered order ends with NO_ANSWER (R98, R112). -/
def endUnanswered (order : Nat) (k : Slot) (s : State) : State := endOrder k (offer (.noAnswer order) s)

/-- RING_TIMER_EXPIRY (R98). -/
def execRingTimerExpiry (order : Nat) (s : State) : Host.Outcome State Fault Refusal :=
  run (whenDue (s.handset.p1.ringOver order || s.handset.p2.ringOver order) fun s =>
    match orderSlot s order with
    | some k => endUnanswered order k s
    | none => s) s

end Sys2Proof.Machine
end

