-- ==== Sys2Proof/Machine/SlotCmds.lean ====
section
/-! DEFINITION. The events of the voice slots: the seizure wait (R109), the answers to SEIZE (R110), RELEASE (R113), RING and
RING_STOP (R111, R112). -/
namespace Sys2Proof.Machine

/-- The port of a slot that one port uses. -/
def SlotRec.port? (r : SlotRec) : Option Port :=
  match r.party with
  | .port p => some p
  | _ => none

/-- The port of the slot enters REFUSED (R87, R88). -/
def refuseParty (k : Slot) (why : Refused) (s : State) : State :=
  match (s.slot k).port? with
  | some p => onPort p (PortRec.toRefused why) s
  | none => s

/-- The seizure wait has ended without an answer (R109). -/
def seizureTimesOut (k : Slot) (s : State) : State := refuseParty k .timeout (releaseWith k .timeout s)

/-- SEIZURE_WAIT_EXPIRY (R109). -/
def execSeizureWaitExpiry (slot : Slot) (s : State) : Host.Outcome State Fault Refusal :=
  run (whenDue ((s.slot slot).live && (s.slot slot).seizing && (s.slot slot).wait == some 0)
    (seizureTimesOut slot)) s

/-- An answer to an earlier seizure of the slot (R110). -/
def dropStale (k : Slot) (s : State) : State := onSlot k (fun r => { r with stale := r.stale - 1 }) s

/-- The seized slot becomes ACTIVE (R109), with concealment cleared (R116). -/
def SlotRec.activated (r : SlotRec) : SlotRec :=
  { r with state := .active, wait := none, last := some (Config.idleCode, Config.idleCode), concealed := 0 }

/-- The port of an acknowledged seizure is CONNECTED, and its digits are sent (R84, R87). -/
def connectPort (p : Port) (s : State) : State :=
  let items := (s.port p).digits
  sendDigits p items (onPort p (fun r => { r with state := .connected, digits := [] }) s)

/-- A received SEIZE_ACK (R110). -/
def takeSeizeAck (k : Slot) (s : State) : State :=
  let r := s.slot k
  if 0 < r.stale then dropStale k s
  else if r.live ∧ r.seizing then
    match r.port? with
    | some p => connectPort p (onSlot k SlotRec.activated s)
    | none => s
  else s

/-- SEIZE_ACK (R110). -/
def execSeizeAck (slot : Slot) (s : State) : Host.Outcome State Fault Refusal :=
  run (whenDue (s.line.state == .service) (takeSeizeAck slot)) s

/-- A received SEIZE_NAK (R110). -/
def takeSeizeNak (k : Slot) (s : State) : State :=
  let r := s.slot k
  if 0 < r.stale then dropStale k s
  else if r.live ∧ r.seizing then refuseParty k .exchange (markReleased k s)
  else s

/-- SEIZE_NAK (R110). -/
def execSeizeNak (slot : Slot) (s : State) : Host.Outcome State Fault Refusal :=
  run (whenDue (s.line.state == .service) (takeSeizeNak slot)) s

/-- A received RELEASE, "taken whatever reason it carries" (R113). A SEIZE of the slot that has not begun transmission stays
in the overhead queue (log entry 33). -/
def takeRelease (k : Slot) (_reason : Nat) (s : State) : State :=
  let r := s.slot k
  if !r.live then s
  else if r.ringing then endOrder k s
  else refuseParty k .cleared (markReleased k s)

/-- RELEASE (R113). -/
def execRelease (slot : Slot) (reason : Nat) (s : State) : Host.Outcome State Fault Refusal :=
  run (whenDue (s.line.state == .service) (takeRelease slot reason)) s

/-! ## Ring orders (R111, R112) -/

/-- The first check of R111 on the named ports that applies. -/
def portsFault (ps : PortSet) (s : State) : Option RingRefusal :=
  let states := ps.ports.map fun p => (s.port p).state
  if states.any (· == .disabled) then some .disabled
  else if states.any (fun x => x != .idle && x != .testing) then some .portBusy
  else none

/-- A test of a named port is aborted as the order is accepted; the port goes on into RINGING (R111, R175). -/
def abortNamedTest (ps : PortSet) (s : State) : State :=
  match s.tester.claim with
  | some c =>
    match c.port with
    | some p => if p ∈ ps.ports then abortClaim c s else s
    | none => s
  | none => s

/-- The named ports enter RINGING (R93). -/
def ringPorts (k : Slot) (order limit : Nat) (pairs : List (Nat × Nat)) : List Port → State → State
  | [], s => s
  | p :: rest, s => ringPorts k order limit pairs rest (onPort p (startRinging k order limit pairs) s)

/-- The order is accepted (R111). A test on a named port is aborted before the slot is granted, so its TEST_RESULT comes before
a THRESHOLD of CALLS_ADMITTED (log entry 66). -/
def acceptRing (ps : PortSet) (cadence order : Nat) (s : State) : State :=
  let k := lowestFree s
  let limit := orderRingLimit s ps
  let pairs := cadenceEntry s cadence
  ringPorts k order limit pairs ps.ports (grant .ring (.set ps) (some order) (abortNamedTest ps s))

/-- A received RING (R111). A RING judged in PASS fails for capacity (R106). -/
def takeRing (ps : PortSet) (cadence order : Nat) (s : State) : State :=
  if 7 < cadence ∨ (orderSlot s order).isSome then s
  else
    match portsFault ps s with
    | some why => offer (.ringRefused order why) s
    | none =>
      if s.shifts.rx.phase ≠ .pass ∧ admissible s then acceptRing ps cadence order s
      else offer (.ringRefused order .capacity) (count .callsLost s)

/-- RING (R111). -/
def execRing (ports : PortSet) (cadence : Nat) (order : Nat) (s : State) : Host.Outcome State Fault Refusal :=
  run (whenDue (s.line.state == .service) (takeRing ports cadence order)) s

/-- A received RING_STOP (R98, R112). -/
def takeRingStop (order : Nat) (s : State) : State :=
  match orderSlot s order with
  | some k => if (s.slot k).ringing then endOrder k s else s
  | none => s

/-- RING_STOP (R112). -/
def execRingStop (order : Nat) (s : State) : Host.Outcome State Fault Refusal :=
  run (whenDue (s.line.state == .service) (takeRingStop order)) s

end Sys2Proof.Machine
end

