-- ==== Sys2Proof/Machine/HomeCmds.lean ====
section
/-! DEFINITION. The home link (R120 to R131) and the arrival of management requests on both channels (R190). -/
namespace Sys2Proof.Machine

/-! ## Requests arriving (R190) -/

/-- The tag and kind in a request's header (R198). -/
def requestTag (bytes : List Byte) : Nat := ofBe16 (bytes.getD 0 0#8) (bytes.getD 1 0#8)
def requestKind (bytes : List Byte) : Nat := (bytes.getD 2 0#8).toNat

/-- A request arrives at its channel's queue (R190): without a readable header it is discarded; at a full queue it is
answered BUSY, or discarded when the response list is full too. -/
def queueRequest (ch : Channel) (bytes addr : List Byte) (s : State) : State :=
  let c := s.chan ch
  if bytes.length < 5 then s
  else if c.requests.length < 4 then onChan ch (fun c => { c with requests := c.requests ++ [⟨bytes, addr⟩] }) s
  else if c.responses.length < 8 then
    addResponse ch ⟨requestTag bytes, requestKind bytes, .busy, [], addr, false⟩ s
  else s

/-- MGMT_REQUEST (R190): its content is 5..512 bytes (R199). -/
def execMgmtRequest (request : List Byte) (s : State) : Host.Outcome State Fault Refusal :=
  run (whenDue (s.line.state == .service && 5 ≤ request.length && request.length ≤ 512)
    (queueRequest .operator request [])) s

/-! ## Frames from the gateway processor (R121 to R125) -/

/-- The 16-bit field at a byte offset. -/
def fieldAt (frame : List Byte) (i : Nat) : Nat := ofBe16 (frame.getD i 0#8) (frame.getD (i + 1) 0#8)

def isTagged (frame : List Byte) : Bool := fieldAt frame 12 == 0x8100

/-- The type field (R122). -/
def typeField (frame : List Byte) : Nat := if isTagged frame then fieldAt frame 16 else fieldAt frame 12

/-- The priority value: the three most significant bits of the tag, or 0 (R122). -/
def priorityOf (frame : List Byte) : Nat := if isTagged frame then (frame.getD 14 0#8).toNat / 32 else 0

/-- The message of a management frame, from its kind byte up to the frame check sequence (R198; log entry 27). -/
def messageOf (frame : List Byte) : List Byte := (frame.take (frame.length - 4)).drop (if isTagged frame then 18 else 14)

/-- A management frame is read and its request queued as HOME_ORIGIN (R122, R190). -/
def takeManagement (frame : List Byte) (s : State) : State :=
  let m := messageOf frame
  let n := fieldAt m 1
  if m.length < 3 ∨ m.getD 0 0#8 ≠ 0x41#8 ∨ m.length < 3 + n then s
  else queueRequest .home ((m.drop 3).take n) ((frame.drop 6).take 6) s

/-- The capacities of R125. -/
def priorityCapacity : Nat := 4096
def bulkCapacity : Nat := 12288

/-- A frame is offered to a queue (R125). -/
def enqueueFrame (priority : Bool) (frame : List Byte) (s : State) : State :=
  if priority then
    if fillOf s.data.priority + frame.length ≤ priorityCapacity then
      { s with data.priority := s.data.priority ++ [frame] }
    else count .framesDropped s
  else if fillOf s.data.bulk + frame.length ≤ bulkCapacity then
    judgeFlow { s with data.bulk := s.data.bulk ++ [frame] }
  else count .framesDropped s

/-- The classification map's destination for a frame (R123). -/
def destinationOf (s : State) (frame : List Byte) : Destination := s.data.map.getD (priorityOf frame) .bulk

/-- The judgment of an arrived frame (R121). -/
def judgeFrame (frame : List Byte) (checkAgrees : Bool) (s : State) : State :=
  if !checkAgrees then count .framesDropped s
  else if frame.length < 64 ∨ 1536 < frame.length then count .framesDropped s
  else if typeField frame = 0x8808 then s
  else if typeField frame = s.data.managementType then takeManagement frame s
  else if s.supply.state = .dormant then count .framesDropped s
  else
    match destinationOf s frame with
    | .priority => enqueueFrame true frame s
    | .bulk => enqueueFrame false frame s
    | .discard => s

/-- HOME_FRAME_RECEIVED (R121): frames arrive while the link is UP (R120). -/
def execHomeFrameReceived (frame : List Byte) (checkAgrees : Bool) (s : State) : Host.Outcome State Fault Refusal :=
  run (whenDue s.data.linkUp (judgeFrame frame checkAgrees)) s

/-! ## The link state (R120, R126, R129) -/

/-- Notices pending for the home link are placed while the buffer has room; the queue holds at most 24. -/
def placeHomeNotices : Nat → State → State
  | 0, s => s
  | n + 1, s => placeHomeNotices n (placeHomeNotice s)

/-- The link comes UP (R120): a pause frame at once when flow pause is asserted, and sending resumes. -/
def linkComesUp (s : State) : State :=
  let t := { s with data.linkUp := true }
  let t := if t.data.flowPause then duePause .longest { t with data.pauseTimer := some 10 } else kickHome t
  placeHomeNotices 24 t

/-- HOME_LINK_UP (R120). -/
def execHomeLinkUp (s : State) : Host.Outcome State Fault Refusal := run (whenDue (!s.data.linkUp) linkComesUp) s

/-- What becomes of the frames as the buffer is emptied (R129); they leave it oldest first, an order R129 does not give (log
entry 67). A notice that has not come back yet stands in the buffer still and holds its sequence number: the THRESHOLD that a
dropped data frame raises passes it over (R141). -/
def returnFrames : List HomeFrame → State → State
  | [], s => { s with data.buffer := [] }
  | f :: rest, s =>
    let t := { s with data.buffer := rest }
    returnFrames rest (match f.item with
      | .data => count .framesDropped t
      | .response _ => t
      | .notice n => returnNotice .home n t)

/-- The link goes DOWN (R120, R129): what was being sent or due is abandoned, and waiting home responses are discarded as
they are offered (R191). -/
def linkGoesDown (s : State) : State :=
  let t := { s with data := { s.data with linkUp := false, tx := .idle, pauseDue := none } }
  offerHomeResponses 8 (returnFrames s.data.buffer t)

/-- HOME_LINK_DOWN (R120). -/
def execHomeLinkDown (s : State) : Host.Outcome State Fault Refusal := run (whenDue s.data.linkUp linkGoesDown) s

/-- The repeat timer has reached 0 (R126). -/
def repeatPause (s : State) : State :=
  if s.data.flowPause ∧ s.data.linkUp then duePause .longest { s with data.pauseTimer := some 10 }
  else { s with data.pauseTimer := none }

/-- PAUSE_REPEAT_EXPIRY (R126). -/
def execPauseRepeatExpiry (s : State) : Host.Outcome State Fault Refusal :=
  run (whenDue (s.data.pauseTimer == some 0) repeatPause) s

/-- The head frame of the buffer has been sent (R129); the DONE of a RESTART counts (R194). -/
def headSent (s : State) : State :=
  match s.data.buffer with
  | [] => s
  | f :: rest =>
    let t := { s with data.buffer := rest }
    match f.item with
    | .response r => restartDoneSent r t
    | _ => t

/-- The home transmitter has finished a frame: a frame gap (R129). -/
def frameGap (s : State) : State :=
  match s.data.tx with
  | .idle => s
  | .pause .. => kickHome { s with data.tx := .idle }
  | .frame => kickHome (headSent { s with data.tx := .idle })

/-- HOME_FRAME_SENT (R129). -/
def execHomeFrameSent (s : State) : Host.Outcome State Fault Refusal := run (whenDue s.data.linkUp frameGap) s

/-- Room of the buffer is filled by waiting responses and a waiting notice, in either order (R129): all the responses that fit
together, and one notice (log entry 68). -/
def fillHome (noticeFirst : Bool) (s : State) : State :=
  if noticeFirst then offerHomeResponses 8 (placeHomeNotice s) else placeHomeNotice (offerHomeResponses 8 s)

/-- HOME_BUFFER_ROOM (R129). -/
def execHomeBufferRoom (noticeFirst : Bool) (s : State) : Host.Outcome State Fault Refusal :=
  run (whenDue s.data.linkUp (fillHome noticeFirst)) s

end Sys2Proof.Machine
end

