-- ==== Sys2Proof/Machine/ArchiveCmds.lean ====
section
/-! DEFINITION. The ends of the flash operations: PROGRAM_DONE (R157, R158) and ERASE_COMPLETE (R160, R162). -/
namespace Sys2Proof.Machine

/-- "When a program into an ordinary slot has brought the block's next ordinary slot to 126, the block becomes FULL" and
the rotation step is taken (R157, R158), before the waiting records are served (log entry 60). -/
def fullIfLast (p : Program) (s : State) : State :=
  let e := s.archive.entry p.block
  if p.slot < 126 ∧ e.state = .current ∧ e.nextOrdinary = 126 then
    rotate { s with archive := s.archive.setEntry p.block fun e => { e with state := .full } }
  else s

/-- A program is complete (R157): the record is in its slot; READY, where the waiting records are served before the rotation step
of R159 (log entry 60), or a held erase goes on (R161). -/
def programCompletes (p : Program) (s : State) : State :=
  let a := s.archive.setBlock p.block fun b => b.write p.slot (.record p.record)
  if a.erase.isSome then
    let t := fullIfLast p { s with archive := { a with program := none, state := .suspended } }
    { t with archive := Archive.serve { t.archive with state := .erasing } }
  else
    archiveReady (fullIfLast p { s with archive := { a with program := none, state := .ready } })

/-- A held erase is abandoned: its target becomes NEEDS_ERASE (R158), a BAD block too (log entry 61). -/
def Archive.abandonErase (a : Archive) : Archive :=
  match a.erase with
  | some e => { a.setEntry e.block (fun x => { x with state := .needsErase }) with erase := none }
  | none => a

/-- A program has failed (R158): a damaged slot, the record missed, ERROR and ARCHIVE_ERROR. -/
def programFails (p : Program) (s : State) : State :=
  let a := (s.archive.setBlock p.block fun b => b.write p.slot .damaged).setEntry p.block
    fun e => { e with damaged := e.damaged + 1 }
  let a := { a.abandonErase with
    program := none, missed := satInc 65535 p.record.missedBefore, programFailed := true, state := .error }
  let t := raise .archive .major .archiveError [Config.archiveError 0, (p.block : Int)] { s with archive := a }
  fullIfLast p t

/-- The local timebase is at the end of the program (log entry 3). -/
def programEnds (agrees : Bool) (p : Program) (s : State) : State :=
  let t := advance p.left s
  if agrees then programCompletes p t else programFails p t

/-- PROGRAM_DONE (R157). -/
def execProgramDone (agrees : Bool) (s : State) : Host.Outcome State Fault Refusal :=
  run (fun s =>
    match s.archive.program with
    | some p => programEnds agrees p s
    | none => s) s

/-- An erase is complete (R160): the header is written, and the block becomes CURRENT or ERASED. -/
def eraseCompletes (e : Erase) (s : State) : State :=
  let a := s.archive
  let n := satInc 65535 (a.entry e.block).eraseCount
  let a := (a.setBlock e.block fun _ => ⟨some ⟨a.blockSequence, n⟩, []⟩).setEntry e.block
    fun x => { x with sequence := a.blockSequence, eraseCount := n, nextOrdinary := 0, nextReserved := 126, damaged := 0 }
  let a := { a with erase := none, state := .ready, blockSequence := satInc sequenceTop a.blockSequence }
  match e.origin with
  | .internal => archiveReady { s with archive := a.makeCurrent e.block }
  | _ =>
    let a := a.setEntry e.block fun x => { x with state := .erased }
    archiveReady (raise .archive .info .eraseDone [(e.block : Int), (n : Int)] { s with archive := a })

/-- An erase has failed (R162): BAD, ERROR and ARCHIVE_ERROR. -/
def eraseFails (e : Erase) (s : State) : State :=
  let a := s.archive.setEntry e.block fun x => { x with state := .bad }
  raise .archive .major .archiveError [Config.archiveError 1, (e.block : Int)]
    { s with archive := { a with erase := none, eraseFailed := true, state := .error } }

/-- The local timebase is at the end of the erase time (log entry 3). -/
def eraseEnds (allBlank : Bool) (e : Erase) (s : State) : State :=
  let t := advance e.left s
  match t.archive.erase with
  | some e => if allBlank then eraseCompletes e t else eraseFails e t
  | none => t

/-- ERASE_COMPLETE (R160): only a running erase comes to its end (R161). -/
def execEraseComplete (allBlank : Bool) (s : State) : Host.Outcome State Fault Refusal :=
  run (fun s =>
    match s.archive.erase with
    | some e => if s.archive.state = .erasing then eraseEnds allBlank e s else s
    | none => s) s

end Sys2Proof.Machine
end

