-- ==== Sys2Proof/Machine/TestCmds.lean ====
section
/-! DEFINITION. The Tester: taking a line or port for a test (R172, R173), completion (R174), the automatic sequence (R177). -/
namespace Sys2Proof.Machine

/-- The line enters TEST from the state it is in (R172). -/
def takeLine (s : State) : State :=
  match s.line.state with
  | .service => leaveService .test .test s
  | .handshake => { endAttempt s with line.state := .test }
  | _ => { s with line.state := .test }

/-- An accepted test fills the claim and takes its line or port (R170 to R173). -/
def startTest (t : TestType) (port : Option Port) (origin : Origin) (force automatic : Bool) (s : State) : State :=
  let before := if lineTest t then some s.line.state else none
  let forced := force && lineTest t && s.line.state == .service
  let c := { s with tester.claim := some ⟨t, port, origin, forced, before, testDuration t, automatic⟩ }
  match port with
  | some p => onPort p PortRec.toTesting c
  | none => takeLine c

/-- The next test of the automatic sequence, when there is one (R177). -/
def nextOfSequence (c : Claim) (v : Verdict) : Option Claim :=
  if c.automatic ∧ c.test = .lineVoltage ∧ v ≠ .fail then
    some { c with test := .lineInsulation, timer := testDuration .lineInsulation }
  else none

/-- The test's limits in force (R169). -/
def limitsOf (s : State) (t : TestType) : Limits := s.tester.limits.getD t.index ⟨0, 0⟩

/-- The test completes (R174, R177). -/
def completeTest (m : Measurement) (c : Claim) (s : State) : State :=
  let value := testValue c.test m
  let v := verdictOf c.test (limitsOf s c.test) value
  let t := reportResult c v value (writeResult c v value s)
  match nextOfSequence c v with
  | some n => { t with tester.claim := some n }
  | none => givePortBack c (giveLineBack c { t with tester.claim := none })

/-- TEST_COMPLETE (R174). -/
def execTestComplete (measured : Measurement) (s : State) : Host.Outcome State Fault Refusal :=
  run (fun s =>
    match s.tester.claim with
    | some c => if c.timer = 0 then completeTest measured c s else s
    | none => s) s

/-- The three conditions of R177 with the request pending. -/
def autoTestDue (s : State) : Bool :=
  s.tester.autoPending && s.line.state == .wait && s.supply.state == .full && s.tester.claim.isNone

/-- The automatic sequence starts with LINE_VOLTAGE (R177). -/
def startSequence (s : State) : State :=
  startTest .lineVoltage none .internal false true { s with tester.autoPending := false }

/-- AUTO_TEST_START (R177). -/
def execAutoTestStart (s : State) : Host.Outcome State Fault Refusal := run (whenDue (autoTestDue s) startSequence) s

end Sys2Proof.Machine
end

