-- ==== Sys2Proof/Machine/SupplyCmds.lean ====
section
/-! DEFINITION. The Supply Controller's events (R180 to R188). -/
namespace Sys2Proof.Machine

/-- The mains input shows absent (R180); a part on mains alone that had begun to wake goes back to DORMANT (R187; log
entry 19). -/
def mainsFails (s : State) : State :=
  let returning := s.supply.returnTimer.isSome
  let t := { s with supply := { s.supply with
    mainsSense := false
    returnTimer := none
    lossTimer := if s.supply.mainsPresent then some (s.supply.lossTimer.getD 0) else none } }
  if returning && !batteryCarries t.supply.battery then
    match t.supply.state with
    | .hold => if t.supply.powerLossHold.isNone then enterDormant t else t
    | .dormant => { t with supply := { t.supply with settle := none } }
    | .full => t
  else t

/-- The mains input shows present (R180); a return timer that starts in DORMANT is a wake (R186). -/
def mainsAppears (s : State) : State :=
  let starts := !s.supply.mainsPresent && s.supply.returnTimer.isNone
  let t := { s with supply := { s.supply with
    mainsSense := true
    lossTimer := none
    returnTimer := if s.supply.mainsPresent then none else some (s.supply.returnTimer.getD 0) } }
  if starts && t.supply.wakeSet.mainsReturn then takeWake .mainsReturn t else t

/-- MAINS_SENSE_CHANGE (R180), `elapsed` ms after the last event of the local timebase. -/
def execMainsSenseChange (present : Bool) (elapsed : Nat) (s : State) : Host.Outcome State Fault Refusal :=
  run (fun s => (if present then mainsAppears else mainsFails) (advanceMs elapsed s)) s

/-- BATTERY_LOW is raised once for a stretch of low battery (R181). -/
def reportLow (s : State) : State :=
  if s.supply.lowReported then s
  else raise .supply .major .batteryLow [] { s with supply := { s.supply with lowReported := true } }

/-- The power-loss sequence runs when power-loss done is no (R185). -/
def powerLossOnce (s : State) : State := if s.supply.powerLossDone then s else powerLossSequence s

/-- A qualified mains loss (R182, R185). The TEST_RESULT of a test that the entry to HOLD aborts, and the THRESHOLD of what the
off-hook of the port given back counts, come before MAINS_LOST (log entry 66). -/
def mainsLost (s : State) : State :=
  let t := { s with supply := { s.supply with mainsPresent := false, lossTimer := none } }
  if batteryCarries t.supply.battery then
    if t.supply.state = .full then
      let t := raise .supply .major .mainsLost [(t.supply.battery.code : Int)] (enterHold t)
      if t.supply.battery = .low then dormancyCheck (reportLow t) else t
    else t
  else powerLossOnce t

/-- MAINS_LOSS_QUALIFIED (R180, R182): the local timebase is at the end of the loss timer. -/
def execMainsLossQualified (s : State) : Host.Outcome State Fault Refusal :=
  run (whenDue (s.supply.mainsPresent && !s.supply.mainsSense) fun s =>
    mainsLost (advanceTo (200 - s.supply.lossTimer.getD 0) s)) s

/-- A qualified mains return (R182, R187). -/
def mainsBack (s : State) : State :=
  let t := { s with supply := { s.supply with mainsPresent := true, returnTimer := none, powerLossDone := false } }
  match t.supply.state with
  | .hold => raise .supply .info .mainsBack [] (enterFull t)
  | .dormant =>
    if t.supply.settle.isSome then t
    else
      let t := enterFull { t with supply := { t.supply with wakeReason := .mainsReturn } }
      let t := raise .supply .info .woken [(WakeReason.mainsReturn.code : Int)] t
      awaken (raise .supply .info .mainsBack [] t)
  | .full => t

/-- MAINS_RETURN_QUALIFIED (R180, R182). -/
def execMainsReturnQualified (s : State) : Host.Outcome State Fault Refusal :=
  run (whenDue (!s.supply.mainsPresent && s.supply.mainsSense) fun s =>
    mainsBack (advanceTo (5000 - s.supply.returnTimer.getD 0) s)) s

/-- A new battery state is taken (R181). LOW without mains in FULL, for which the table has no row, is kept and changes nothing
else (log entry 73). -/
def takeBattery (b : Battery) (s : State) : State :=
  let t := { s with supply := { s.supply with battery := b } }
  match b with
  | .good => { t with supply := { t.supply with lowReported := false, powerLossDone := false } }
  | .low =>
    if !t.supply.mainsPresent ∧ t.supply.state ≠ .full then
      dormancyCheck (reportLow { t with supply := { t.supply with powerLossDone := false } })
    else t
  | .exhausted | .none => if t.supply.mainsPresent then t else powerLossOnce t

/-- BATTERY_STATE_CHANGE (R181). -/
def execBatteryStateChange (battery : Battery) (s : State) : Host.Outcome State Fault Refusal :=
  run (whenDue (battery != s.supply.battery) (takeBattery battery)) s

/-- POWER_LOSS_HOLD_EXPIRY (R185): the local timebase runs to the end of the hold, where DORMANT is entered. -/
def execPowerLossHoldExpiry (s : State) : Host.Outcome State Fault Refusal :=
  run (fun s =>
    match s.supply.powerLossHold with
    | some h => powerLossCheck (advance h s)
    | none => s) s

/-- LINE_WAKE_SIGNAL (R186). -/
def execLineWakeSignal (s : State) : Host.Outcome State Fault Refusal :=
  run (whenDue (s.supply.wakeSet.line && batteryCarries s.supply.battery) (takeWake .line)) s

/-- The supply leaves DORMANT at the end of the settle period (R187). -/
def leaveDormant (s : State) : State :=
  let t := { s with supply := { s.supply with settle := none } }
  let t := if t.supply.mainsPresent then enterFull t
    else setAllowance 1 { t with supply := { t.supply with state := .hold, wakeWindow := some 600 } }
  awaken (raise .supply .info .woken [(t.supply.wakeReason.code : Int)] t)

/-- SETTLE_TIMER_EXPIRY (R187). -/
def execSettleTimerExpiry (s : State) : Host.Outcome State Fault Refusal :=
  run (fun s =>
    match s.supply.settle with
    | some n => whenDue (s.supply.state == .dormant) leaveDormant (advanceTo n s)
    | none => s) s

/-- WAKE_WINDOW_EXPIRY (R188). -/
def execWakeWindowExpiry (s : State) : Host.Outcome State Fault Refusal :=
  run (whenDue (s.supply.state == .hold && s.supply.wakeWindow == some 0) fun s =>
    dormancyCheck { s with supply := { s.supply with wakeWindow := none } }) s

end Sys2Proof.Machine
end

