-- ==== Sys2Proof/Machine/Reports.lean ====
section
/-! DEFINITION. The reports of the READ_ requests, field by field in the order their rules list them (R39, R41, R66, R79, R103,
R119, R132, R140, R149, R166, R176, R189, R197), and their encoding (R198). Log entries 13 and 17 say what R198 leaves to the
model: the bytes of a field that holds none, and which tables carry a count. -/
namespace Sys2Proof.Machine

/-! ## Encoding (R198) -/

/-- A field of a report: bytes as they are, or a list with a 1-byte count that may be cut to whole items. -/
inductive Field where
  | raw (bytes : List Byte)
  | list (items : List (List Byte))
  deriving DecidableEq, Repr

/-- The least room a field needs. -/
def Field.least : Field → Nat
  | .raw bs => bs.length
  | .list _ => 1

/-- The whole items that fit in a room. -/
def fitItems (room : Nat) : List (List Byte) → List (List Byte)
  | [] => []
  | x :: rest => if x.length ≤ room then x :: fitItems (room - x.length) rest else []

/-- A report within a limit: a list that would run past it is cut to the whole items that fit beside the fields that follow
(R198). -/
def encodeFields : Nat → List Field → List Byte
  | _, [] => []
  | room, .raw bs :: rest => bs ++ encodeFields (room - bs.length) rest
  | room, .list items :: rest =>
    let later := rest.foldl (fun n f => n + f.least) 0
    let given := fitItems (room - 1 - later) (items.take 255)
    let bs := byteOf given.length :: given.flatten
    bs ++ encodeFields (room - bs.length) rest

/-- "at most 506 data bytes on the overhead channel and 1512 on the home link". -/
def reportLimit : Channel → Nat
  | .operator => 506
  | .home => 1512

def nat (n : Nat) : Field := .raw (num n)
def int (x : Int) : Field := .raw (num x)
def wide (n : Nat) : Field := .raw (be32 n)
def enum (n : Nat) : Field := .raw [byteOf n]
def flag (b : Bool) : Field := .raw (flagByte b)

/-- The bytes of a field that holds none (log entry 13); `id` names the field. -/
def absent (id width : Nat) : Field := .raw ((List.range width).map (Config.absentByte id))

def natOr (id : Nat) : Option Nat → Field
  | some n => nat n
  | none => absent id 4

def enumOr (id : Nat) : Option Nat → Field
  | some n => enum n
  | none => absent id 1

def wideOr (id : Nat) : Option Nat → Field
  | some n => wide n
  | none => absent id 4

/-- Fields given only while a condition holds. -/
def onlyWhen (c : Bool) (fs : List Field) : List Field := if c then fs else []

/-- The bytes of fields that are items of a list. -/
def itemBytes (fs : List Field) : List Byte := encodeFields 0 fs

/-! ## Codes of the state's names, in the order their rules give them -/

def ShiftPhase.code : ShiftPhase → Nat
  | .idle => 0
  | .pass => 1
  | .offered => 2
  | .agreed => 3

def ShiftKind.code : ShiftKind → Nat
  | .down => 0
  | .up => 1
  | .supply => 2

def TrackState.code : TrackState → Nat
  | .search => 0
  | .candidate => 1
  | .locked => 2

def TrackUse.code : TrackUse → Nat
  | .reference => 0
  | .candidate => 1
  | .matched => 2
  | .stray => 3
  | .reset => 4

def PortState.code : PortState → Nat
  | .idle => 0
  | .seizing => 1
  | .connected => 2
  | .ringing => 3
  | .refused => 4
  | .noService => 5
  | .silent => 6
  | .testing => 7
  | .disabled => 8

/-- "Reasons are 1 byte, numbered from 1 in the order in which the rule that names them lists them" (R199); R80. -/
def Refused.code : Refused → Nat
  | .capacity => 1
  | .exchange => 2
  | .timeout => 3
  | .cleared => 4
  | .shed => 5

def LoopState.code : LoopState → Nat
  | .onHook => 0
  | .offHook => 1
  | .brk => 2

def SlotState.code : SlotState → Nat
  | .free => 0
  | .reserved => 1
  | .active => 2

def SlotUse.code : SlotUse → Nat
  | .outgoing => 0
  | .ring => 1

def ArchiveMode.code : ArchiveMode → Nat
  | .wrap => 0
  | .keep => 1

def ItemState.code : ItemState → Nat
  | .blank => 0
  | .programmed _ => 1
  | .spoiled => 2

/-- A state named by two words, the first being 0. -/
def twoState (first : Bool) : Field := enum (if first then 0 else 1)

/-! ## The reports -/

/-- R197. -/
def statusReport (s : State) : List Field :=
  [wide s.mgmt.serial, nat s.mgmt.revision, .raw (ownAddress s), nat s.archive.powerOns, wide s.time.uptime] ++
  (match s.mgmt.resetKind with
    | .powerOn => [enum 0]
    | .restart o => [enum 1, enum o.code]) ++
  [enum s.line.state.code, enum s.supply.state.code, enum s.archive.state.code, flag s.archive.programFailed,
    flag s.archive.eraseFailed, flag s.factory.isOpen] ++
  s.factory.items.map (fun x => enum x.code) ++
  (match s.factory.programming with
    | some p => [enum p.index]
    | none => [])

/-- The bank a selector names (R39). -/
def selectedBank (t : Tones) (d : Dir) : BankSel → BankId
  | .active => t.activeId d
  | .standby => otherBank (t.activeId d)
  | .a => .a
  | .b => .b

/-- The RX measurement of a tone; 0 and 0 for a TX tone (R200). -/
def measAt (s : State) (d : Dir) (tone : Nat) : Meas :=
  match d with
  | .rx => s.tones.meas.getD (tone - firstTone .rx) ⟨0, 0⟩
  | .tx => ⟨0, 0⟩

/-- A tone report entry, 7 bytes (R200). -/
def toneEntry (s : State) (d : Dir) (bank : List ToneRec) (tone : Nat) : List Byte :=
  let r := recAt d bank tone
  let c := settingAt d (s.tones.settings d) tone
  let m := measAt s d tone
  [byteOf tone, byteOf r.bits, signedByte r.gain, byteOf c.cap, byteOf c.state.code, byteOf m.s, byteOf m.belowFloor]

/-- The tones of a direction from `first` to `last`, ascending. -/
def tonesIn (d : Dir) (first last : Nat) : List Nat :=
  (List.range 256).filter fun i => inDir d i && first ≤ i && i ≤ last

/-- R39: at most 64 entries; the next tone not reported when there are more. -/
def tonesReport (s : State) (d : Dir) (sel : BankSel) (first last : Nat) : List Field :=
  let id := selectedBank s.tones d sel
  let bank := s.tones.bank d id
  let all := tonesIn d first last
  [.list ((all.take 64).map (toneEntry s d bank)), enum id.code, nat (bitTotal bank), int (gainSum bank)] ++
  (match all[64]? with
    | some t => [nat t]
    | none => [])

/-- A tone matches a pattern in every attribute not marked don't-care (R41). -/
def toneMatches (s : State) (d : Dir) (p : TonePattern) (tone : Nat) : Bool :=
  let r := recAt d (s.tones.active d) tone
  let c := settingAt d (s.tones.settings d) tone
  let below := d == .rx && (measAt s d tone).s < 16
  (p.anyState || c.state == p.state) && (p.anyLoaded || (0 < r.bits) == p.loaded)
    && (p.anyOverCap || (c.cap < r.bits) == p.overCap) && (p.anyBelowFloor || below == p.belowFloor)

/-- R41: the matching tones up to the limit, and how many match. -/
def searchReport (s : State) (d : Dir) (p : TonePattern) (limit : Nat) : List Field :=
  let all := (tonesIn d 0 255).filter (toneMatches s d p)
  [.list ((all.take limit).map fun (t : Nat) => num t), nat all.length]

/-- A remaining back-off is reported in WAIT and in a TEST entered from WAIT (R66). -/
def backoffShown (s : State) : Bool :=
  s.line.state == .wait ||
    (s.line.state == .test && (match s.tester.claim with
      | some c => c.lineBefore == some .wait
      | none => false))

/-- R66, the RX direction first. -/
def lineReport (s : State) : List Field :=
  let m := s.tones.margins
  let x := s.shifts.rx
  [enum s.line.state.code, flag s.line.enabled, enumOr 1 (s.line.lastLoss.map LossReason.code)] ++
  onlyWhen (backoffShown s) [nat s.line.backoff] ++
  [enum s.tones.rxActive.code, nat s.framer.rx.b, nat s.framer.rx.d, flag s.line.rxHold,
    enum s.tones.txActive.code, nat s.framer.tx.b, nat s.framer.tx.d, flag s.line.txHold,
    int s.tones.lineMargin, nat s.tones.credit, nat m.r, nat m.d, nat m.m, nat m.u,
    nat s.line.attempts,
    nat s.line.retrainSeconds, nat s.line.lowSeconds, nat s.line.highSeconds, nat s.line.severeSeconds,
    nat s.line.losTimer,
    enum x.phase.code, enum x.kind.code, flag x.supplyPending, nat x.swapCount, wideOr 2 x.holdOff,
    flag s.shifts.tx.isSome] ++
  (match s.shifts.tx with
    | some t => [nat t.swapCount]
    | none => []) ++
  [flag s.shifts.rxSwap.isSome] ++
  (match s.shifts.rxSwap with
    | some w => [nat w.swapCount]
    | none => []) ++
  [flag s.shifts.txSwap.isSome] ++
  (match s.shifts.txSwap with
    | some w => [nat w.swapCount]
    | none => [])

/-- A schedule's period, window start and width. -/
def scheduleFields (id : Nat) : Option Schedule → List Field
  | some x => [nat x.period, wide x.first, nat x.width]
  | none => [absent id 4, absent (id + 1) 4, absent (id + 2) 4]

/-- An entry of the event history (R69); "inside or outside" is numbered in that order. -/
def eventFields (e : ImpulseEvent) : List Field :=
  [wide e.position, nat e.cycle, nat e.symbol, nat e.run, twoState e.inside, enum e.use.code]

/-- R79. -/
def impulseReport (s : State) : List Field :=
  let i := s.impulse
  [enum i.state.code, wideOr 3 i.reference, nat i.p, nat (tolerance i.p), nat i.matchCount, nat i.missCount] ++
  (match i.state, nextPredicted s with
    | .locked, some x => [wide x, nat (nameOf s.time x).1, nat (nameOf s.time x).2]
    | _, _ => []) ++
  [.list (i.history.map fun e => itemBytes (eventFields e)), flag i.quietEnable, nat i.width, flag i.due] ++
  scheduleFields 4 i.down ++ scheduleFields 7 (i.downOut.map (·.sched)) ++ scheduleFields 10 i.up

/-- Cycles as seconds, rounded down (R103). -/
def inSeconds (t : Option Nat) : Option Nat := t.map (· / 100)

/-- The cadence in use with its position and the phase time left (R103). -/
def cadenceFields : Option Cadence → List Field
  | some c =>
    [.list (c.pairs.map fun p => num p.1 ++ num p.2), nat (c.pair + 1), twoState c.on, natOr 13 (inSeconds c.timer)]
  | none => [.list [], absent 14 4, absent 15 1, absent 13 4]

/-- R103. -/
def portReport (s : State) (p : Port) : List Field :=
  let r := s.port p
  [enum r.state.code, enumOr 16 (r.refusal.map Refused.code), enum r.loop.code, natOr 17 r.brk, natOr 18 r.make,
    nat r.pulses, nat r.digits.length, nat r.dialErrors, natOr 19 r.lastDigit,
    natOr 20 (r.slot.map Slot.index), natOr 21 r.order] ++
  cadenceFields r.cadence ++
  [flag r.unitHeld, flag r.skipped, natOr 22 (inSeconds r.ringTimer), natOr 23 (inSeconds r.toneTimer),
    flag r.wakeMark, nat r.timing.pulse, nat r.timing.flash, nat r.timing.make, nat r.timing.ring,
    nat s.handset.allowance, nat (unitsHeld s), nat (s.handset.allowance - unitsHeld s)]

/-- One slot record of R119; the port field is 1 byte, with the codes R199 gives RING's port sets for a port and for a port
set alike (log entry 44). -/
def slotFields (r : SlotRec) : List Field :=
  [enum r.state.code, enumOr 24 (r.use.map SlotUse.code),
    (match r.party with
      | .none => absent 25 1
      | x => enum x.code),
    natOr 26 r.order, nat r.number, wide r.admittedAt, flag r.released, natOr 27 r.wait, nat r.stale, nat r.concealed]

/-- R119, the RX budget record first. -/
def slotsReport (s : State) : List Field :=
  slotFields s.slots.s0 ++ slotFields s.slots.s1 ++
  [nat s.slots.admissions, natOr 28 (s.slots.newest.map Slot.index),
    nat s.framer.rx.v, nat s.framer.rx.d, nat s.framer.tx.v, nat s.framer.tx.d]

/-- The head frame of a queue is in progress (R127). -/
def headInProgress (s : State) (priority : Bool) : Bool :=
  match s.framer.up with
  | .frame p _ => p == priority
  | _ => false

/-- R132. -/
def queuesReport (s : State) : List Field :=
  [twoState s.data.linkUp, nat s.data.managementType] ++ s.data.map.map (fun x => enum x.code) ++
  [nat (fillOf s.data.priority), nat s.data.priority.length, flag (headInProgress s true),
    nat (fillOf s.data.bulk), nat s.data.bulk.length, flag (headInProgress s false),
    flag s.data.flowPause, natOr 29 s.data.pauseTimer, nat (bufferFill s.data.buffer), nat s.data.buffer.length]

/-- The numbers of the counters in a set of crossings, from 1 (R135, R136). -/
def crossingNumbers (c : List Bool) : List Nat :=
  ((List.range c.length).filter fun i => c.getD i false).map (· + 1)

/-- A set of crossings is a list with a 1-byte count, the counter numbers in 4 bytes each (log entry 45). -/
def crossingField (c : List Bool) : Field := .list ((crossingNumbers c).map fun (n : Nat) => num n)

/-- R140. -/
def countersReport (s : State) : List Field :=
  let p := s.perf
  [nat p.number, wide p.start, nat p.seconds] ++ p.counters.map nat ++ [crossingField p.crossings] ++
  p.thresholds.map nat ++ [nat p.failures, nat p.outside, flag p.noSignal]

/-- An entry of the interval ring (R136); its crossings are a counted list (log entry 45). -/
def intervalBytes (e : Interval) : List Byte :=
  num e.number ++ be32 e.start ++ num e.seconds ++ flagByte e.partialFlag ++ e.counters.flatMap (fun (n : Nat) => num n)
    ++ [byteOf (crossingNumbers e.crossings).length] ++ (crossingNumbers e.crossings).flatMap fun (n : Nat) => num n

/-- R140: index 0 is the newest entry. -/
def intervalsReport (s : State) (first n : Nat) : List Field :=
  [.list (((s.perf.ring.reverse.drop first).take n).map intervalBytes), nat s.perf.ring.length]

/-- R149; the queue list stands in placement order. A route and a notice's pending channels are two flag bytes each, the
home side first (log entry 46). -/
def noticesReport (s : State) : List Field :=
  let n := s.notices
  [nat n.queue.length,
    .list (n.queue.map fun e => e.notice.bytes ++ flagByte e.home ++ flagByte e.overhead)] ++
  n.routes.flatMap (fun r => [flag r.home, flag r.operator]) ++
  [flag n.homeEnable, flag n.operatorEnable, nat n.lost, nat n.nextSequence, enum n.archiveThreshold.code]

/-- Insertion into a list in falling order of archive sequence. -/
def insertRecord (x : ArchRec × Nat × Nat) : List (ArchRec × Nat × Nat) → List (ArchRec × Nat × Nat)
  | [] => [x]
  | y :: rest => if y.1.sequence ≤ x.1.sequence then x :: y :: rest else y :: insertRecord x rest

/-- Every record of the flash with its block and slot, the highest archive sequence first (R166). -/
def recordsNewestFirst (flash : List FlashBlock) : List (ArchRec × Nat × Nat) :=
  let all := (List.range flash.length).flatMap fun b =>
    (flash.getD b ⟨none, []⟩).slots.filterMap fun e =>
      match e.2 with
      | .record r => some (r, b, e.1)
      | .damaged => none
  all.foldl (fun l x => insertRecord x l) []

def blockFields (e : BlockEntry) : List Field :=
  [enum e.state.code, wide e.sequence, nat e.eraseCount, nat e.nextOrdinary, nat e.nextReserved, nat e.damaged]

/-- R166; the erase time left is in ms, rounded down. -/
def archiveReport (s : State) (first n : Nat) : List Field :=
  let a := s.archive
  let all := recordsNewestFirst a.flash
  [.list (((all.drop first).take n).map fun x => x.1.bytes ++ [byteOf x.2.1, byteOf x.2.2]), nat all.length] ++
  a.table.flatMap blockFields ++
  [nat a.pointer, enum a.mode.code, enum a.state.code, flag a.programFailed, flag a.eraseFailed] ++
  (match a.erase with
    | some e => [nat e.block, enum e.origin.code, nat (e.left / 2)]
    | none => []) ++
  [nat a.pendingList.length, nat a.missed, nat a.powerOns, wide a.sequence]

/-- An entry of the results table (R176). -/
def resultFields (e : TestEntry) : List Field :=
  [enum e.verdict.code, int e.value, natOr 30 (e.port.map Port.index), enumOr 31 (e.origin.map Origin.code),
    wide e.uptime]

/-- A held claim (R176), the time left in seconds, rounded down; `line before` by R42's codes of a line state (log entry 64). -/
def claimFields : Option Claim → List Field
  | none => [flag false]
  | some c =>
    [flag true, enum c.test.index, natOr 32 (c.port.map Port.index), enum c.origin.code, flag c.force,
      enumOr 33 (c.lineBefore.map LineState.code), flag c.automatic, nat (c.timer / 100)]

/-- The limits of a test; PORT_LEAK has a FAIL limit only (R169). -/
def limitFields (i : Nat) (l : Limits) : List Field := if i = 4 then [nat l.fail] else [nat l.warn, nat l.fail]

/-- R176. -/
def testReport (s : State) : List Field :=
  s.tester.results.flatMap resultFields ++ claimFields s.tester.claim ++
  (List.range s.tester.limits.length).flatMap (fun i => limitFields i (s.tester.limits.getD i ⟨0, 0⟩)) ++
  [flag s.tester.autoPending]

/-- R189; the power-loss hold is in ms, rounded down. -/
def supplyReport (s : State) : List Field :=
  let p := s.supply
  [enum p.state.code, twoState p.mainsSense, twoState p.mainsPresent, natOr 34 p.lossTimer, natOr 35 p.returnTimer,
    enum p.battery.code, flag p.lowReported, flag p.powerLossDone,
    flag p.wakeSet.port1, flag p.wakeSet.port2, flag p.wakeSet.line, flag p.wakeSet.mainsReturn,
    enum p.wakeReason.code, natOr 36 p.settle, natOr 37 p.wakeWindow] ++
  (match p.powerLossHold with
    | some h => [nat (h / 2)]
    | none => [])

end Sys2Proof.Machine
end

