-- ==== Sys2Proof/Machine/Requests.lean ====
section
/-! DEFINITION. What each request does once its owner takes it: the new state with the result and the data of the answer, or no
answer yet (FACTORY_PROGRAM, R196). The convention of R191 holds in each: clamp first, then check order and structure on
the clamped values. -/
namespace Sys2Proof.Machine

/-- The state a served request leaves, and its answer when it is given at once. -/
abbrev Served := State × Option (Result × List Byte)

/-- An answer without data. -/
def answered (r : Result) (s : State) : Served := (s, some (r, []))

/-- DONE, or DONE_CLAMPED when a value was clamped. -/
def doneOr (clamped : Bool) (s : State) : Served := answered (if clamped then .doneClamped else .done) s

/-- A report, cut to the channel's limit. -/
def reported (ch : Channel) (r : Result) (fs : List Field) (s : State) : Served :=
  (s, some (r, encodeFields (reportLimit ch) fs))

/-- The port a number names (R100, R101, R103, R171). -/
def portOf (n : Int) : Option Port := if n = 1 then some .p1 else if n = 2 then some .p2 else none

/-! ## Reads -/

def serveReadTones (ch : Channel) (dir : Dir) (bank : BankSel) (first last : Int) (s : State) : Served :=
  if first < 0 ∨ 255 < first ∨ last < 0 ∨ 255 < last ∨ last < first then answered .badParameter s
  else reported ch .done (tonesReport s dir bank first.toNat last.toNat) s

def serveSearchTones (ch : Channel) (dir : Dir) (p : TonePattern) (limit : Int) (s : State) : Served :=
  reported ch (if wasClamped 1 64 limit then .doneClamped else .done)
    (searchReport s dir p (clampNat 1 64 limit)) s

def serveReadPort (ch : Channel) (port : Int) (s : State) : Served :=
  match portOf port with
  | some p => reported ch .done (portReport s p) s
  | none => answered .badParameter s

/-- R140. A clamped count is answered DONE_CLAMPED also when the first index lies beyond the ring's entries (log entry
47). -/
def serveReadIntervals (ch : Channel) (first count : Int) (s : State) : Served :=
  if first < 0 ∨ 15 < first then answered .badParameter s
  else
    reported ch (if wasClamped 1 16 count then .doneClamped else .done)
      (intervalsReport s first.toNat (clampNat 1 16 count)) s

/-- R166. A clamped count is answered DONE_CLAMPED also when the first index lies beyond the records (log entry 47). -/
def serveReadArchive (ch : Channel) (first count : Int) (s : State) : Served :=
  if first < 0 then answered .badParameter s
  else
    reported ch (if wasClamped 1 16 count then .doneClamped else .done)
      (archiveReport s first.toNat (clampNat 1 16 count)) s

/-! ## WRITE_TONES (R40) -/

/-- The cap a function gives, before it is fitted. -/
def capResult (fn : ToneFn) (cap : Nat) (value : Int) : Int :=
  match fn with
  | .set => value
  | .add => cap + value
  | .min => min (cap : Int) value
  | .max => max (cap : Int) value

/-- A result fitted to a cap's values: "a negative result becomes 0, 1 becomes 0, and a result above 12 becomes 12". -/
def fitCap (x : Int) : Nat := if x < 2 then 0 else if 12 < x then 12 else x.toNat

/-- The tone is one of first, first + stride, … up to last. -/
def selected (first last stride tone : Nat) : Bool := first ≤ tone && tone ≤ last && (tone - first) % stride == 0

/-- Change the settings of the selected tones, from tone `i` on. -/
def mapSelected {α : Type} (sel : Nat → Bool) (f : α → α) : Nat → List α → List α
  | _, [] => []
  | i, x :: rest => (if sel i then f x else x) :: mapSelected sel f (i + 1) rest

/-- A selected tone's cap result has to be fitted. -/
def anyFitted (sel : Nat → Bool) (fn : ToneFn) (value : Int) : Nat → List ToneSetting → Bool
  | _, [] => false
  | i, c :: rest =>
    (sel i && ((fitCap (capResult fn c.cap value) : Nat) : Int) != capResult fn c.cap value)
      || anyFitted sel fn value (i + 1) rest

/-- The state a value names for the field STATE: ACTIVE or MASKED only (log entry 17). -/
def writableState (value : Int) : Option ToneState :=
  if value = 0 then some .active else if value = 1 then some .masked else none

def writeCaps (dir : Dir) (sel : Nat → Bool) (fn : ToneFn) (value : Int) (s : State) : State :=
  let write (c : ToneSetting) : ToneSetting := { c with cap := fitCap (capResult fn c.cap value) }
  { s with tones := s.tones.setSettings dir (mapSelected sel write (firstTone dir) (s.tones.settings dir)) }

/-- Every tone whose state is written starts a fresh count of below-floor seconds (R38). -/
def writeStates (dir : Dir) (sel : Nat → Bool) (st : ToneState) (s : State) : State :=
  let write (c : ToneSetting) : ToneSetting := { c with state := st }
  let t := s.tones.setSettings dir (mapSelected sel write (firstTone dir) (s.tones.settings dir))
  { s with tones := match dir with
    | .rx => { t with meas := mapSelected sel (fun (m : Meas) => { m with belowFloor := 0 }) 33 t.meas }
    | .tx => t }

def serveWriteTones (dir : Dir) (first last stride : Int) (field : ToneField) (fn : ToneFn) (value : Int) (s : State) :
    Served :=
  if first < 0 ∨ 255 < first ∨ last < 0 ∨ 255 < last ∨ last < first then answered .badParameter s
  else
    let sel := selected first.toNat last.toNat (clampNat 1 16 stride)
    let clamped := wasClamped 1 16 stride
    match field with
    | .cap =>
      doneOr (clamped || anyFitted sel fn value (firstTone dir) (s.tones.settings dir)) (writeCaps dir sel fn value s)
    | .state =>
      match fn, writableState value with
      | .set, some st => doneOr clamped (writeStates dir sel st s)
      | _, _ => answered .badParameter s

/-! ## Line requests (R63 to R65) -/

def enableLine (s : State) : State :=
  let t := { s with line.enabled := true }
  if s.line.state = .off ∧ s.supply.state ≠ .dormant then leaveOff t else t

def disableLine (s : State) : State :=
  let t := { s with line.enabled := false }
  if s.line.state = .service then leaveService .disabled .off t else lineToOff .disabled t

def serveLineControl (action : LineAction) (s : State) : Served :=
  match action with
  | .enable => answered .done (enableLine s)
  | .disable => answered .done (disableLine s)
  | .retrainNow =>
    match s.line.state with
    | .service => answered .done (leaveService .requested .wait s)
    | .wait => answered .done (enterHandshake { s with line.backoff := 0 })
    | .handshake | .probe | .tables => answered .done (enterHandshake s)
    | .off | .test => answered .refusedState s

def serveSetMargins (r d m u : Int) (s : State) : Served :=
  let x : Margins := ⟨clampNat 0 63 r, clampNat 0 63 d, clampNat 0 63 m, clampNat 0 63 u⟩
  if marginsOrdered x.r x.d x.m x.u then
    doneOr (wasClamped 0 63 r || wasClamped 0 63 d || wasClamped 0 63 m || wasClamped 0 63 u)
      { s with tones.margins := x }
  else answered .badParameter s

def serveStepMargin (way : StepWay) (s : State) : Served :=
  let x := s.tones.margins
  let m : Int := match way with
    | .up => x.m + 4
    | .down => x.m - 4
  let lo : Int := x.d + 1
  let hi : Int := x.u - 1
  doneOr (m < lo || hi < m) { s with tones.margins := { x with m := (clamp lo hi m).toNat } }

def serveSetHoldCeiling (tone : Int) (s : State) : Served :=
  doneOr (wasClamped 48 255 tone) { s with tones.holdCeiling := clampNat 48 255 tone }

def serveLoadThresholds (t : List Int) (s : State) : Served :=
  let x := t.map (clampNat 0 255)
  if validThresholds x then doneOr (t.any (wasClamped 0 255)) { s with tones.thresholds := x }
  else answered .badParameter s

/-! ## SET_QUIET (R78) -/

/-- A request with enable on makes a schedule due in LOCKED and SERVICE when enable was off, W has changed, or an exchange
cancel held. -/
def quietOn (width : Nat) (s : State) : State :=
  let i := s.impulse
  let fresh := !i.quietEnable || i.width != width || i.exchangeCancel
  let locked := i.state == .locked && s.line.state == .service
  { s with impulse := { i with
    quietEnable := true, width := width, exchangeCancel := false, due := i.due || (fresh && locked) } }

def quietOff (width : Nat) (s : State) : State :=
  let t := { s with impulse := { s.impulse with quietEnable := false, width := width } }
  if s.impulse.quietEnable ∧ s.impulse.state = .locked ∧ s.line.state = .service then cancelDown t else t

def serveSetQuiet (width : Int) (enable : Bool) (s : State) : Served :=
  let w := clampNat 1 4 width
  doneOr (wasClamped 1 4 width) (if enable then quietOn w s else quietOff w s)

/-! ## Port requests (R100 to R102) -/

/-- The port leaves its ring order (R100, R112): the order goes on with the other port, or ends with NO_ANSWER. -/
def leaveRing (p : Port) (s : State) : State :=
  let r := s.port p
  let q := s.port (otherPort p)
  let out := onPort p PortRec.toDisabled s
  match r.slot, r.order with
  | some k, some o =>
    if q.state = .ringing ∧ q.slot = some k then
      onSlot k (fun x => { x with party := .set (portSetOf (otherPort p)) }) out
    else endUnanswered o k out
  | _, _ => out

/-- A port in SEIZING or CONNECTED releases its slot with reason DISABLED (R113). -/
def disableCall (p : Port) (s : State) : State :=
  let t := match (s.port p).slot with
    | some k => releaseWith k .disabled s
    | none => s
  onPort p PortRec.toDisabled t

def disablePort (p : Port) (s : State) : Served :=
  match (s.port p).state with
  | .idle | .refused | .noService | .silent => answered .done (onPort p PortRec.toDisabled s)
  | .seizing | .connected => answered .done (disableCall p s)
  | .ringing => answered .done (leaveRing p s)
  | .testing => answered .refusedState s
  | .disabled => answered .done s

def serveSetPort (port : Int) (action : PortAction) (s : State) : Served :=
  match portOf port with
  | none => answered .badParameter s
  | some p =>
    match action with
    | .disable => disablePort p s
    | .enable => answered .done (if (s.port p).state = .disabled then idleThenLoop p s else s)

def serveSetPortTiming (port pulse flash make ring : Int) (s : State) : Served :=
  match portOf port with
  | none => answered .badParameter s
  | some p =>
    let x : Timing := ⟨clampNat 60 150 pulse, clampNat 300 1000 flash, clampNat 100 300 make, clampNat 10 600 ring⟩
    if x.pulse + 100 < x.flash then
      doneOr (wasClamped 60 150 pulse || wasClamped 300 1000 flash || wasClamped 100 300 make || wasClamped 10 600 ring)
        (onPort p (fun r => { r with timing := x }) s)
    else answered .badParameter s

/-- Each interval of a cadence in 1..100 (R102). -/
def clampCadence (e : List (Int × Int)) : List (Nat × Nat) := e.map fun p => (clampNat 1 100 p.1, clampNat 1 100 p.2)

def cadenceClamped (e : List (Int × Int)) : Bool := e.any fun p => wasClamped 1 100 p.1 || wasClamped 1 100 p.2

/-- Eight entries of 1..4 pairs (R102). -/
def cadenceShape {α : Type} (entries : List (List α)) : Bool :=
  entries.length == 8 && entries.all fun e => 1 ≤ e.length && e.length ≤ 4

def serveLoadCadences (entries : List (List (Int × Int))) (s : State) : Served :=
  if cadenceShape entries then
    doneOr (entries.any cadenceClamped) { s with handset.cadences := entries.map clampCadence }
  else answered .badParameter s

/-! ## Queue map, thresholds, routes (R124, R139, R148, R149) -/

def destinationOfCode : Nat → Destination
  | 0 => .priority
  | 1 => .bulk
  | _ => .discard

def serveSetQueueMap (map : List Nat) (s : State) : Served :=
  if map.length = 8 ∧ map.all (· ≤ 2) then answered .done { s with data.map := map.map destinationOfCode }
  else answered .badParameter s

def serveSetThresholds (t : List Int) (s : State) : Served :=
  if t.length = 12 then
    doneOr (t.any (wasClamped 0 65535)) { s with perf.thresholds := t.map (clampNat 0 65535) }
  else answered .badParameter s

/-- The flags replace one side of every route, and that side's master enable is set; a master enable that is off leaves no
notice pending on its channel (R148). -/
def setRoutes (side : Side) (flags : List Bool) (master : Bool) (n : Notices) : Notices :=
  match side with
  | .home =>
    let x := { n with routes := (n.routes.zip flags).map fun r => { r.1 with home := r.2 }, homeEnable := master }
    if master then x else Notices.prune { x with queue := x.queue.map fun e => e.without .home }
  | .operator =>
    let x := { n with routes := (n.routes.zip flags).map fun r => { r.1 with operator := r.2 }, operatorEnable := master }
    if master then x else Notices.prune { x with queue := x.queue.map fun e => e.without .overhead }

def serveSetRoutes (ch : Channel) (side : Side) (flags : List Bool) (master : Bool) (s : State) : Served :=
  if ch = .home ∧ side = .operator then answered .refusedOrigin s
  else if flags.length = 8 then answered .done { s with notices := setRoutes side flags master s.notices }
  else answered .badParameter s

def serveSetArchiveThreshold (severity : Nat) (s : State) : Served :=
  match Severity.ofCode severity with
  | some x => answered .done { s with notices := { s.notices with archiveThreshold := x } }
  | none => answered .badParameter s

/-! ## Archive requests (R162, R164, R165) -/

def serveEraseArchiveBlock (block : Int) (s : State) : Served :=
  if block < 0 ∨ 3 < block then answered .badParameter s
  else if s.supply.state = .dormant then answered .refusedState s
  else if s.archive.state = .error then answered .refusedState s
  else if s.archive.blockSequence = sequenceTop then answered .refusedState s
  else if s.archive.state ≠ .ready then answered .busy s
  else if (s.archive.entry block.toNat).state = .current then answered .refusedState s
  else answered .accepted { s with archive := s.archive.beginErase block.toNat .operator }

def serveSetArchiveMode (mode : Nat) (s : State) : Served :=
  let set (m : ArchiveMode) : Served :=
    answered .done (rotate { s with archive := { s.archive with mode := m, fullReported := false } })
  match mode with
  | 0 => set .wrap
  | 1 => set .keep
  | _ => answered .badParameter s

def clearStatus (s : State) : State :=
  if s.archive.state = .error then
    archiveReady { s with archive := { s.archive with programFailed := false, eraseFailed := false, state := .ready } }
  else s

/-- DONE in every sequencer state (R162). -/
def serveClearStatus (s : State) : Served := answered .done (clearStatus s)

/-! ## Tester requests (R171, R178) -/

/-- A line test is refused by the line state (R171). -/
def lineRefuses (force : Bool) (s : State) : Bool :=
  match s.line.state with
  | .probe | .tables | .test => true
  | .service => !force || !s.slots.allFree
  | _ => false

/-- RUN_TEST, judged in the order of R171. A port test asks only for an IDLE port, also while the slot of a call that ended in
this cycle is not yet FREE (log entry 65). -/
def serveRunTest (ch : Channel) (test : Nat) (port : Int) (force : Bool) (s : State) : Served :=
  match TestType.ofIndex test with
  | none => answered .badParameter s
  | some t =>
    let target := if lineTest t then none else portOf port
    if !lineTest t ∧ target = none then answered .badParameter s
    else if s.tester.claim.isSome then answered .busy s
    else if s.supply.state ≠ .full then answered .refusedState s
    else
      match target with
      | none =>
        if lineRefuses force s then answered .refusedState s
        else answered .accepted (startTest t none (Channel.origin ch) force false s)
      | some p =>
        if (s.port p).state ≠ .idle then answered .refusedState s
        else answered .accepted (startTest t (some p) (Channel.origin ch) false false s)

def serveSetTestLimits (test : Nat) (warn fail : Int) (s : State) : Served :=
  match TestType.ofIndex test with
  | none => answered .badParameter s
  | some t =>
    let top := limitTop t
    let leak := t == .portLeak
    let w := if leak then 0 else clampNat 0 top warn
    let f := clampNat 0 top fail
    if limitsOrdered t w f then
      doneOr ((!leak && wasClamped 0 top warn) || wasClamped 0 top fail)
        { s with tester := { s.tester with limits := s.tester.limits.set t.index ⟨w, f⟩ } }
    else answered .badParameter s

/-! ## Supply, restart, Factory Store (R189, R194, R196) -/

def serveSetWake (port1 port2 line mainsReturn : Bool) (s : State) : Served :=
  answered .done { s with supply := { s.supply with wakeSet := ⟨port1, port2, line, mainsReturn⟩ } }

/-- A restart becomes pending, or one more DONE joins the pending one (R194). -/
def serveRestart (ch : Channel) (s : State) : Served :=
  answered .done { s with mgmt := { s.mgmt with restart := match s.mgmt.restart with
    | none => some ⟨ch, 100, 1⟩
    | some r => some { r with unsent := r.unsent + 1 } } }

def serveFactoryOpen (open_ : Bool) (s : State) : Served :=
  answered .done { s with factory := { s.factory with isOpen := open_ } }

def inside (lo hi x : Int) : Bool := lo ≤ x && x ≤ hi

/-- The item a value is for, in R195's order. -/
def itemIndex : FactoryValue → Option Nat
  | .identity .. => some 0
  | .managementType _ => some 1
  | .thresholds _ => some 2
  | .cadences _ => some 3
  | .margins .. => some 4
  | .holdCeiling _ => some 5
  | .unknown => none

/-- The value as its item holds it, when it passes the check of R195. -/
def checkedItem : FactoryValue → Option Item
  | .identity serial revision =>
    if 1 ≤ serial ∧ serial ≤ 4294967295 ∧ inside 0 255 revision then some (.identity serial revision.toNat) else none
  | .managementType v =>
    if inside 0x0600 0xFFFF v ∧ v ≠ 0x8100 ∧ v ≠ 0x8808 then some (.managementType v.toNat) else none
  | .thresholds t =>
    if t.all (inside 0 255) ∧ validThresholds (t.map Int.toNat) then some (.thresholds (t.map Int.toNat)) else none
  | .cadences es =>
    if cadenceShape es ∧ !es.any cadenceClamped then some (.cadences (es.map clampCadence)) else none
  | .margins r d m u =>
    if inside 0 63 r ∧ inside 0 63 d ∧ inside 0 63 m ∧ inside 0 63 u ∧ marginsOrdered r.toNat d.toNat m.toNat u.toNat then
      some (.margins ⟨r.toNat, d.toNat, m.toNat, u.toNat⟩)
    else none
  | .holdCeiling t => if inside 48 255 t then some (.holdCeiling t.toNat) else none
  | .unknown => none

/-- The item's state is BLANK (R195). -/
def itemBlank (s : State) (i : Nat) : Bool :=
  match s.factory.items[i]? with
  | some .blank => true
  | _ => false

/-- The conditions of R196 in order; a programming takes 10 ms and is answered at its end. -/
def serveFactoryProgram (via : Via) (value : FactoryValue) (s : State) : Served :=
  match itemIndex value with
  | none => answered .badParameter s
  | some i =>
    if !s.factory.isOpen then answered .refusedState s
    else if s.factory.programming.isSome then answered .busy s
    else if !itemBlank s i then answered .refusedState s
    else
      match checkedItem value with
      | none => answered .badParameter s
      | some x => ({ s with factory := { s.factory with programming := some ⟨i, x, via, 20⟩ } }, none)

end Sys2Proof.Machine
end

