-- ==== Sys2Proof/Machine/MgmtCmds.lean ====
section
/-! DEFINITION. The Management Unit: judging and answering requests (R190 to R192), the dispatch from a channel's queue,
one meaning per request kind, and the end of a Factory Store programming (R196). -/
namespace Sys2Proof.Machine

/-! ## Answering -/

/-- The channel can dispatch a request: none of its requests is being carried out, and its response list holds fewer than
4 responses (R191). -/
def channelFree (ch : Channel) (s : State) : Bool :=
  (s.chan ch).responses.length < 4 &&
    match s.factory.programming with
    | some p => p.via.ch != ch
    | none => true

/-- The response to a request; a RESTART's DONE is marked, because R194 waits for it to be sent. -/
def responseOf (via : Via) (kind : Nat) (r : Result) (data : List Byte) : Response :=
  ⟨via.tag, kind, r, data, via.addr, kind == 0x24 && r == .done⟩

/-- An answer joins the response list of the request's channel (R191). -/
def respond (via : Via) (kind : Nat) (r : Result) (data : List Byte) (s : State) : State :=
  addResponse via.ch (responseOf via kind r data) s

/-- What a served request answered joins the list; FACTORY_PROGRAM may leave its answer for later (R196). -/
def conclude (via : Via) (kind : Nat) (x : Served) : State :=
  match x.2 with
  | some (r, data) => respond via kind r data x.1
  | none => x.1

/-- A request whose form is right, dispatched on a channel that can dispatch it: the origin check, then the owner (R191
checks 2 and 4; log entry 20). -/
def request (via : Via) (kind : Nat) (serve : State → Served) : State → State :=
  fun s => whenDue (channelFree via.ch s)
    (fun s =>
      if originAllowed kind via.ch then conclude via kind (serve s) else respond via kind .refusedOrigin [] s) s

/-- A read without parameters. -/
def reading (ch : Channel) (report : State → List Field) (s : State) : Served := reported ch .done (report s) s

/-! ## The requests, one meaning each -/

/-- READ_STATUS (R197). -/
def execReadStatus (via : Via) (s : State) : Host.Outcome State Fault Refusal :=
  run (request via 0x01 (reading via.ch statusReport)) s

/-- READ_TONES (R39). -/
def execReadTones (via : Via) (dir : Dir) (bank : BankSel) (first last : Int) (s : State) : Host.Outcome State Fault Refusal :=
  run (request via 0x02 (serveReadTones via.ch dir bank first last)) s

/-- SEARCH_TONES (R41). -/
def execSearchTones (via : Via) (dir : Dir) (pattern : TonePattern) (limit : Int) (s : State) : Host.Outcome State Fault Refusal :=
  run (request via 0x03 (serveSearchTones via.ch dir pattern limit)) s

/-- READ_LINE (R66). -/
def execReadLine (via : Via) (s : State) : Host.Outcome State Fault Refusal :=
  run (request via 0x04 (reading via.ch lineReport)) s

/-- READ_IMPULSE (R79). -/
def execReadImpulse (via : Via) (s : State) : Host.Outcome State Fault Refusal :=
  run (request via 0x05 (reading via.ch impulseReport)) s

/-- READ_PORT (R103). -/
def execReadPort (via : Via) (port : Int) (s : State) : Host.Outcome State Fault Refusal :=
  run (request via 0x06 (serveReadPort via.ch port)) s

/-- READ_SLOTS (R119). -/
def execReadSlots (via : Via) (s : State) : Host.Outcome State Fault Refusal :=
  run (request via 0x07 (reading via.ch slotsReport)) s

/-- READ_QUEUES (R132). -/
def execReadQueues (via : Via) (s : State) : Host.Outcome State Fault Refusal :=
  run (request via 0x08 (reading via.ch queuesReport)) s

/-- READ_COUNTERS (R140). -/
def execReadCounters (via : Via) (s : State) : Host.Outcome State Fault Refusal :=
  run (request via 0x09 (reading via.ch countersReport)) s

/-- READ_INTERVALS (R140). -/
def execReadIntervals (via : Via) (first count : Int) (s : State) : Host.Outcome State Fault Refusal :=
  run (request via 0x0A (serveReadIntervals via.ch first count)) s

/-- READ_NOTICE_STATE (R149). -/
def execReadNoticeState (via : Via) (s : State) : Host.Outcome State Fault Refusal :=
  run (request via 0x0B (reading via.ch noticesReport)) s

/-- READ_ARCHIVE (R166). -/
def execReadArchive (via : Via) (first count : Int) (s : State) : Host.Outcome State Fault Refusal :=
  run (request via 0x0C (serveReadArchive via.ch first count)) s

/-- READ_TEST_RESULTS (R176). -/
def execReadTestResults (via : Via) (s : State) : Host.Outcome State Fault Refusal :=
  run (request via 0x0D (reading via.ch testReport)) s

/-- READ_SUPPLY (R189). -/
def execReadSupply (via : Via) (s : State) : Host.Outcome State Fault Refusal :=
  run (request via 0x0E (reading via.ch supplyReport)) s

/-- WRITE_TONES (R40). -/
def execWriteTones (via : Via) (dir : Dir) (first last stride : Int) (field : ToneField) (fn : ToneFn) (value : Int) (s : State) : Host.Outcome State Fault Refusal :=
  run (request via 0x10 (serveWriteTones dir first last stride field fn value)) s

/-- LINE_CONTROL (R63). -/
def execLineControl (via : Via) (action : LineAction) (s : State) : Host.Outcome State Fault Refusal :=
  run (request via 0x11 (serveLineControl action)) s

/-- SET_MARGINS (R64). -/
def execSetMargins (via : Via) (r d m u : Int) (s : State) : Host.Outcome State Fault Refusal :=
  run (request via 0x12 (serveSetMargins r d m u)) s

/-- STEP_MARGIN (R64). -/
def execStepMargin (via : Via) (way : StepWay) (s : State) : Host.Outcome State Fault Refusal :=
  run (request via 0x13 (serveStepMargin way)) s

/-- SET_HOLD_CEILING (R65). -/
def execSetHoldCeiling (via : Via) (tone : Int) (s : State) : Host.Outcome State Fault Refusal :=
  run (request via 0x14 (serveSetHoldCeiling tone)) s

/-- LOAD_THRESHOLDS (R65). -/
def execLoadThresholds (via : Via) (t : List Int) (s : State) : Host.Outcome State Fault Refusal :=
  run (request via 0x15 (serveLoadThresholds t)) s

/-- SET_QUIET (R78). -/
def execSetQuiet (via : Via) (width : Int) (enable : Bool) (s : State) : Host.Outcome State Fault Refusal :=
  run (request via 0x16 (serveSetQuiet width enable)) s

/-- SET_PORT (R100). -/
def execSetPort (via : Via) (port : Int) (action : PortAction) (s : State) : Host.Outcome State Fault Refusal :=
  run (request via 0x17 (serveSetPort port action)) s

/-- SET_PORT_TIMING (R101). -/
def execSetPortTiming (via : Via) (port pulse flash make ring : Int) (s : State) : Host.Outcome State Fault Refusal :=
  run (request via 0x18 (serveSetPortTiming port pulse flash make ring)) s

/-- LOAD_CADENCES (R102). -/
def execLoadCadences (via : Via) (entries : List (List (Int × Int))) (s : State) : Host.Outcome State Fault Refusal :=
  run (request via 0x19 (serveLoadCadences entries)) s

/-- SET_QUEUE_MAP (R124). -/
def execSetQueueMap (via : Via) (map : List Nat) (s : State) : Host.Outcome State Fault Refusal :=
  run (request via 0x1A (serveSetQueueMap map)) s

/-- SET_THRESHOLDS (R139). -/
def execSetThresholds (via : Via) (t : List Int) (s : State) : Host.Outcome State Fault Refusal :=
  run (request via 0x1B (serveSetThresholds t)) s

/-- SET_ROUTES (R148). -/
def execSetRoutes (via : Via) (side : Side) (flags : List Bool) (master : Bool) (s : State) : Host.Outcome State Fault Refusal :=
  run (request via 0x1C (serveSetRoutes via.ch side flags master)) s

/-- SET_ARCHIVE_THRESHOLD (R149). -/
def execSetArchiveThreshold (via : Via) (severity : Nat) (s : State) : Host.Outcome State Fault Refusal :=
  run (request via 0x1D (serveSetArchiveThreshold severity)) s

/-- ERASE_ARCHIVE_BLOCK (R164). -/
def execEraseArchiveBlock (via : Via) (block : Int) (s : State) : Host.Outcome State Fault Refusal :=
  run (request via 0x1E (serveEraseArchiveBlock block)) s

/-- SET_ARCHIVE_MODE (R165). -/
def execSetArchiveMode (via : Via) (mode : Nat) (s : State) : Host.Outcome State Fault Refusal :=
  run (request via 0x1F (serveSetArchiveMode mode)) s

/-- CLEAR_ARCHIVE_STATUS (R162). -/
def execClearArchiveStatus (via : Via) (s : State) : Host.Outcome State Fault Refusal :=
  run (request via 0x20 (serveClearStatus)) s

/-- RUN_TEST (R171). -/
def execRunTest (via : Via) (test : Nat) (port : Int) (force : Bool) (s : State) : Host.Outcome State Fault Refusal :=
  run (request via 0x21 (serveRunTest via.ch test port force)) s

/-- SET_TEST_LIMITS (R178). -/
def execSetTestLimits (via : Via) (test : Nat) (warn fail : Int) (s : State) : Host.Outcome State Fault Refusal :=
  run (request via 0x22 (serveSetTestLimits test warn fail)) s

/-- SET_WAKE (R189). -/
def execSetWake (via : Via) (port1 port2 line mainsReturn : Bool) (s : State) : Host.Outcome State Fault Refusal :=
  run (request via 0x23 (serveSetWake port1 port2 line mainsReturn)) s

/-- RESTART (R194). -/
def execRestart (via : Via) (s : State) : Host.Outcome State Fault Refusal :=
  run (request via 0x24 (serveRestart via.ch)) s

/-- FACTORY_OPEN (R196). -/
def execFactoryOpen (via : Via) (s : State) : Host.Outcome State Fault Refusal :=
  run (request via 0x25 (serveFactoryOpen true)) s

/-- FACTORY_CLOSE (R196). -/
def execFactoryClose (via : Via) (s : State) : Host.Outcome State Fault Refusal :=
  run (request via 0x26 (serveFactoryOpen false)) s

/-- FACTORY_PROGRAM (R196). -/
def execFactoryProgram (via : Via) (value : FactoryValue) (s : State) : Host.Outcome State Fault Refusal :=
  run (request via 0x27 (serveFactoryProgram via value)) s

/-! ## Dispatch (R191) -/

/-- The owner of a request that was read from its bytes. -/
def ownerOf : Instr → State → Served
  | .readStatus via => reading via.ch statusReport
  | .readTones via dir bank first last => serveReadTones via.ch dir bank first last
  | .searchTones via dir pattern limit => serveSearchTones via.ch dir pattern limit
  | .readLine via => reading via.ch lineReport
  | .readImpulse via => reading via.ch impulseReport
  | .readPort via port => serveReadPort via.ch port
  | .readSlots via => reading via.ch slotsReport
  | .readQueues via => reading via.ch queuesReport
  | .readCounters via => reading via.ch countersReport
  | .readIntervals via first count => serveReadIntervals via.ch first count
  | .readNoticeState via => reading via.ch noticesReport
  | .readArchive via first count => serveReadArchive via.ch first count
  | .readTestResults via => reading via.ch testReport
  | .readSupply via => reading via.ch supplyReport
  | .writeTones _ dir first last stride field fn value => serveWriteTones dir first last stride field fn value
  | .lineControl _ action => serveLineControl action
  | .setMargins _ r d m u => serveSetMargins r d m u
  | .stepMargin _ way => serveStepMargin way
  | .setHoldCeiling _ tone => serveSetHoldCeiling tone
  | .loadThresholds _ t => serveLoadThresholds t
  | .setQuiet _ width enable => serveSetQuiet width enable
  | .setPort _ port action => serveSetPort port action
  | .setPortTiming _ port pulse flash make ring => serveSetPortTiming port pulse flash make ring
  | .loadCadences _ entries => serveLoadCadences entries
  | .setQueueMap _ map => serveSetQueueMap map
  | .setThresholds _ t => serveSetThresholds t
  | .setRoutes via side flags master => serveSetRoutes via.ch side flags master
  | .setArchiveThreshold _ severity => serveSetArchiveThreshold severity
  | .eraseArchiveBlock _ block => serveEraseArchiveBlock block
  | .setArchiveMode _ mode => serveSetArchiveMode mode
  | .clearArchiveStatus _ => serveClearStatus
  | .runTest via test port force => serveRunTest via.ch test port force
  | .setTestLimits _ test warn fail => serveSetTestLimits test warn fail
  | .setWake _ port1 port2 line mainsReturn => serveSetWake port1 port2 line mainsReturn
  | .restart via => serveRestart via.ch
  | .factoryOpen _ => serveFactoryOpen true
  | .factoryClose _ => serveFactoryOpen false
  | .factoryProgram via value => serveFactoryProgram via value
  | .powerOn .. | .restartTakesEffect | .cycleBoundary .. | .secondBoundary | .intervalClose
  | .receiveSymbol .. | .transmitSymbol .. | .overheadMessageSent | .overheadRoomFill
  | .receivedMessageDiscarded .. | .trainingRepeat .. | .trainReply .. | .handshakeTimerExpiry | .probeStart
  | .probeEnd | .txTable .. | .entry .. | .tablesTimerExpiry | .serviceEntry .. | .backoffExpiry
  | .noSignalTimeout | .retrainSecondsTrigger | .severeSecondsTrigger | .rxShiftStart | .loadingPassDone ..
  | .rateOfferTimeout | .rateOffer .. | .rateAccept .. | .rateDecline .. | .rateWithdraw | .rxShiftApplied
  | .txShiftApplied | .swapOrder .. | .swapAck | .swapReject .. | .rxSwapApplied | .txSwapApplied
  | .swapWaitExpiry | .toneHoldExpiry .. | .predictionTimerExpiry | .windowTailExpiry | .quietScheduleOffer
  | .quietSchedule .. | .quietCancel .. | .loopSenseChange .. | .debounceExpiry .. | .breakPulseLimitPassed ..
  | .breakTimerExpiry .. | .makeTimerExpiry .. | .toneTimerExpiry .. | .cadencePhaseEnd | .ringTimerExpiry ..
  | .seizureWaitExpiry .. | .seizeAck .. | .seizeNak .. | .release .. | .ring .. | .ringStop ..
  | .mgmtRequest .. | .homeFrameReceived .. | .homeLinkUp | .homeLinkDown | .pauseRepeatExpiry | .homeFrameSent
  | .homeBufferRoom .. | .programDone .. | .eraseComplete .. | .testComplete .. | .autoTestStart
  | .mainsSenseChange .. | .mainsLossQualified | .mainsReturnQualified | .batteryStateChange ..
  | .powerLossHoldExpiry | .lineWakeSignal | .settleTimerExpiry | .wakeWindowExpiry | .requestDispatch ..
  | .factoryProgramDone .. | .lossOfPower =>
    fun s => (s, none)

/-- The parameter length agrees with the request's size, and the parameters spell a request of their kind (R191 check 3). -/
def readParameters (via : Via) (bytes : List Byte) : Option Instr :=
  if ofBe16 (bytes.getD 3 0#8) (bytes.getD 4 0#8) = bytes.length - 5 then
    readRequest via (requestKind bytes) (bytes.drop 5)
  else none

/-- The four checks of R191 in their order. -/
def judge (via : Via) (bytes : List Byte) (s : State) : State :=
  let kind := requestKind bytes
  if !knownKind kind then respond via kind .unknownRequest [] s
  else if !originAllowed kind via.ch then respond via kind .refusedOrigin [] s
  else
    match readParameters via bytes with
    | none => respond via kind .badParameter [] s
    | some i => conclude via kind (ownerOf i s)

/-- The head of a channel's request queue leaves it and is judged. -/
def dispatch (ch : Channel) (s : State) : State :=
  match (s.chan ch).requests with
  | [] => s
  | q :: rest =>
    judge ⟨ch, requestTag q.bytes, q.addr⟩ q.bytes (onChan ch (fun c => { c with requests := rest }) s)

/-- REQUEST_DISPATCH (R191). -/
def execRequestDispatch (ch : Channel) (s : State) : Host.Outcome State Fault Refusal :=
  run (fun s => whenDue (channelFree ch s) (dispatch ch) s) s

/-! ## The end of a programming (R196) -/

/-- The read-back: the item is PROGRAMMED and answered DONE, or SPOILED and answered REFUSED_STATE. -/
def programmingEnds (agrees : Bool) (p : Programming) (s : State) : State :=
  let t := advance p.left s
  let item : ItemState := if agrees then .programmed p.value else .spoiled
  respond p.via 0x27 (if agrees then .done else .refusedState) []
    { t with factory := { t.factory with items := t.factory.items.set p.index item, programming := none } }

/-- FACTORY_PROGRAM_DONE (R196). -/
def execFactoryProgramDone (agrees : Bool) (s : State) : Host.Outcome State Fault Refusal :=
  run (fun s =>
    match s.factory.programming with
    | some p => programmingEnds agrees p s
    | none => s) s

end Sys2Proof.Machine
end

