-- ==== Sys2Proof/Machine/Frame.lean ====
section
/-! DEFINITION. The line frame: a downstream symbol received and split (R2 to R5, R8, R10, R11, R16, R67, R116, R117), an
upstream symbol composed (R3 to R5, R8, R9, R12, R127), the end of an overhead message (R12, R13, R75, R185, R191, R194),
the filling of the overhead queue's room (R14) and a message discarded (R16). -/
namespace Sys2Proof.Machine

/-! ## Layout (R4) -/

/-- D of a direction, "taken as 0" in a quiet symbol (R8). -/
def dataBytes (b : Budget) (quiet : Bool) : Nat := if quiet then 0 else b.d

/-- The slot carries its port's voice: ACTIVE and not released (R116, R117). -/
def SlotRec.carriesVoice (r : SlotRec) : Bool := r.state == .active && !r.released

/-! ## The downstream receiver (R10, R11) -/

/-- A length a data frame may have (R9). -/
def frameLength (n : Nat) : Bool := 64 ≤ n && n ≤ 1536

/-- The first two bytes of the window as a length. -/
def windowLength (w : List Byte) : Nat := ofBe16 (w.getD 0 0#8) (w.getD 1 0#8)

/-- The check after the content agrees (R9). -/
def checkAgrees (n : Nat) (w : List Byte) : Bool := checkBytes (w.take (n + 2)) == (w.drop (n + 2)).take 2

/-- The content of the frame the window begins with. -/
def windowContent (n : Nat) (w : List Byte) : List Byte := (w.drop 2).take n

def setWindow (w : List Byte) (s : State) : State := { s with framer.window := w }

/-- A discarded frame: counted, and one frame check failure reported (R10, R133). -/
def discardFrame (s : State) : State :=
  count .framesDiscarded { s with perf.failures := satInc 255 s.perf.failures }

/-- What the receiver can do with the window as it stands; `none` when it waits for more bytes. -/
def receiverStep (s : State) : Option State :=
  let w := s.framer.window
  let n := windowLength w
  if w.length < 2 then none
  else if s.framer.hunting then
    if !frameLength n then some (setWindow (w.drop 1) s)
    else if w.length < n + 4 then none
    else if checkAgrees n w then
      some (deliverDown (windowContent n w) { setWindow (w.drop (n + 4)) s with framer.hunting := false })
    else some (setWindow (w.drop 1) s)
  else if n = 0 then some (setWindow (w.drop 2) s)
  else if !frameLength n then some (discardFrame { setWindow (w.drop 1) s with framer.hunting := true })
  else if w.length < n + 4 then none
  else if checkAgrees n w then some (deliverDown (windowContent n w) (setWindow (w.drop (n + 4)) s))
  else some (discardFrame (setWindow (w.drop (n + 4)) s))

/-- The receiver runs until it waits for more bytes; each step takes at least one byte from the window. -/
def runReceiver : Nat → State → State
  | 0, s => s
  | fuel + 1, s =>
    match receiverStep s with
    | some t => runReceiver fuel t
    | none => s

/-- The data bytes of a symbol join the stream one by one, in order. -/
def takeData : List Byte → State → State
  | [], s => s
  | b :: rest, s =>
    let w := s.framer.window ++ [b]
    takeData rest (runReceiver (w.length + 1) (setWindow w s))

/-! ## Received overhead bytes (R16) -/

/-- The block that owns a received message takes it up (R16). -/
def handleMessage (i : Instr) (s : State) : State :=
  match i with
  | .rateOffer dir count hold first tones => takeOffer dir count hold first tones s
  | .rateAccept count => takeAccept count s
  | .rateDecline reason => takeDecline reason s
  | .rateWithdraw => takeWithdraw s
  | .swapOrder dir count entries => takeSwapOrder dir count entries s
  | .swapAck => takeSwapAck s
  | .swapReject reason => takeSwapReject reason s
  | .quietSchedule dir period cycle symbol width => takeSchedule dir period cycle symbol width s
  | .quietCancel dir => takeCancel dir s
  | .seizeAck slot => takeSeizeAck slot s
  | .seizeNak slot => takeSeizeNak slot s
  | .release slot reason => takeRelease slot reason s
  | .ring ports cadence order => takeRing ports cadence order s
  | .ringStop order => takeRingStop order s
  | .mgmtRequest request => queueRequest .operator request [] s
  | _ => s

/-- What one more received overhead byte makes of the bytes collected, and the message it completes. A fill byte between
messages is passed over; a length above 512 sets the receive side to between messages (R16). -/
def collect (received : List Byte) (b : Byte) : List Byte × Option (Byte × List Byte) :=
  if received = [] ∧ b = 0#8 then ([], none)
  else
    let w := received ++ [b]
    let n := ofBe16 (w.getD 1 0#8) (w.getD 2 0#8)
    if w.length < 3 then (w, none)
    else if 512 < n then ([], none)
    else if w.length = n + 3 then ([], some (w.getD 0 0#8, w.drop 3))
    else (w, none)

/-- The message the byte completes, handed to its owner or discarded (R16). -/
def takeOverheadByte (b : Byte) (s : State) : State :=
  let r := collect s.overhead.received b
  let t := { s with overhead.received := r.1 }
  match r.2 with
  | some (kind, content) =>
    match readMessage kind content with
    | some i => handleMessage i t
    | none => t
  | none => t

/-! ## Voice downstream (R5, R91, R116, R117) -/

/-- The samples that reach the codec from a slot that carries voice, with the slot's record after them (R116). -/
def voiceOut (concealed : Bool) (pair : Byte × Byte) (r : SlotRec) : (Byte × Byte) × SlotRec :=
  if concealed then
    let run := satInc 255 r.concealed
    (if 9 ≤ run then idlePair else r.last.getD idlePair, { r with concealed := run })
  else (pair, { r with last := some pair, concealed := 0 })

/-- The downstream samples of one slot, over what its port would receive without it. A slot that is not yet in the layout
carries nothing (R7). -/
def slotVoice (concealed : Bool) (k : Slot) (pair : Byte × Byte) (s : State) : State :=
  let r := s.slot k
  if r.laid && r.carriesVoice then
    match r.port? with
    | some p =>
      let x := voiceOut concealed pair r
      onPort p (fun q => { q with codec := [x.1] }) (s.setSlot k x.2)
    | none => s
  else s

/-! ## A received symbol -/

/-- A received symbol's pieces by the layout of R4: the overhead byte, the samples of slots 0 and 1, the data bytes. -/
structure Split where
  overhead : Byte
  voice0 : Byte × Byte
  voice1 : Byte × Byte
  data : List Byte
  deriving DecidableEq, Repr

/-- Two bytes as a pair of samples. -/
def pairAt (bits : List Bool) : Byte × Byte := (byteAt bits, byteAt (bits.drop 8))

/-- The bits a slot takes (R4). -/
def slotBits (r : SlotRec) : Nat := if r.laid then 16 else 0

/-- The next `n` bits of a tone, most significant first; bits the tone lacks read 0 (log entry 5). -/
def toneBits (n : Nat) (decided : List Bool) : List Bool := decided.take n ++ List.replicate (n - decided.length) false

/-- The payload of a received symbol: in ascending tone index each tone of the bank gives the bits its record carries, and a
tone with 0 bits gives none (R3). -/
def demapTones : List ToneRec → List (List Bool) → List Bool
  | [], _ => []
  | r :: bank, tones => toneBits r.bits (tones.headD []) ++ demapTones bank tones.tail

/-- The payload split by the layout (R4); pad bits are ignored, and the samples of a slot that is not laid out are not
used. -/
def splitPayload (s : State) (quiet : Bool) (payload : List Bool) : Split :=
  let b0 := payload.drop 8
  let b1 := b0.drop (slotBits s.slots.s0)
  let d := b1.drop (slotBits s.slots.s1)
  ⟨byteAt payload, pairAt b0, pairAt b1, bytesFrom (dataBytes s.framer.rx quiet) d⟩

/-- The prediction timer and the window tail count this symbol (R72). -/
def Impulse.countSymbol (i : Impulse) : Impulse :=
  { i with prediction := tickDown i.prediction, tail := tickDown i.tail }

/-- The tracker as a symbol at a position is received: schedules that begin there are in force, and the timers have
counted (R72, R75, R77; log entry 10). -/
def Impulse.atSymbol (i : Impulse) (pos : Nat) : Impulse := ((i.promoteDown pos).promoteUp pos).countSymbol

/-- The judgment of a symbol in SERVICE: an impulse symbol is handed to the tracker, any other is good (R21, R67, R68). -/
def judgeSymbol (impulse inside : Bool) (s : State) : State :=
  if impulse then takeImpulse s.time.symbolCounter inside s
  else { s with tones.goodSymbols := s.tones.goodSymbols + 1 }

/-- The cycle has one symbol more: "within a cycle the symbols are numbered 0..39" (R1), in every line state. -/
def Time.numberSymbol (t : Time) : Time := { t with symbolNo := t.symbolNo + 1 }

/-- The symbol is numbered and counted (R1, R2). -/
def Time.nextSymbol (t : Time) : Time :=
  { t.numberSymbol with symbolCounter := (t.symbolCounter + 1) % 4294967296 }

/-- A symbol received in SERVICE, as the bits decided on each RX tone from tone 33: judged, its payload taken from the tones of
the active RX bank (R3), its voice and data taken, counted, and its overhead byte taken last (log entry
23). -/
def serviceSymbol (ratios : List Int) (tones : List (List Bool)) (s : State) : State :=
  let pos := s.time.symbolCounter
  let t := { s with impulse := s.impulse.atSymbol pos }
  let quiet := t.impulse.quietDown pos
  let impulse := impulseSymbol t ratios
  let x := splitPayload t quiet (demapTones (t.tones.active .rx) tones)
  let t := judgeSymbol impulse quiet t
  let t := slotVoice (impulse || quiet) .s1 x.voice1 (slotVoice (impulse || quiet) .s0 x.voice0 (localVoice t))
  let t := takeData x.data t
  takeOverheadByte x.overhead { t with time := t.time.nextSymbol, impulse := t.impulse.pastSymbol pos }

/-- A symbol received in PROBE, where every one is good (R21), or in TABLES. -/
def trainingSymbol (s : State) : State :=
  let t := localVoice s
  let t := if s.line.state = .probe then { t with tones.goodSymbols := t.tones.goodSymbols + 1 } else t
  { t with time := t.time.nextSymbol }

/-- In the line states in which the symbol counter "does not advance" (R2) the part takes nothing from a symbol but its number
within the cycle (R1), and the codecs receive their local samples (R91). -/
def receive (ratios : List Int) (tones : List (List Bool)) (s : State) : State :=
  match s.line.state with
  | .service => serviceSymbol ratios tones s
  | .probe | .tables => trainingSymbol s
  | .off | .handshake | .wait | .test => { localVoice s with time := s.time.numberSymbol }

/-- RECEIVE_SYMBOL (R67): a cycle has 40 symbols (R1). -/
def execReceiveSymbol (ratios : List Int) (tones : List (List Bool)) (s : State) : Host.Outcome State Fault Refusal :=
  run (whenDue (s.time.symbolNo < 40) (receive ratios tones)) s

/-! ## The upstream byte stream (R9, R127) -/

/-- A frame as it goes on the line: length, content, check (R9). -/
def lineFrame (content : List Byte) : List Byte :=
  let body := be16 content.length ++ content
  body ++ checkBytes body

/-- The frame the Data Queue Unit gives: the head of PRIORITY, or else of BULK (R127); the flag says PRIORITY. -/
def nextFrame (s : State) : Option (Bool × List Byte) :=
  match s.data.priority, s.data.bulk with
  | f :: _, _ => some (true, f)
  | [], f :: _ => some (false, f)
  | [], [] => none

/-- The last byte of the frame's check has been placed: the frame leaves its queue (R9, R125), and flow pause is judged
(R126). -/
def frameSent (priority : Bool) (s : State) : State :=
  if priority then { s with data.priority := s.data.priority.tail }
  else judgeFlow { s with data.bulk := s.data.bulk.tail }

/-- The stream is at a frame boundary: the Data Queue Unit is asked, and the frame it gives is in progress from then on
(R127). Without a frame the stream stays at the boundary until its next byte falls due. -/
def askQueues (s : State) : State :=
  match nextFrame s with
  | some (priority, f) => { s with framer.up := .frame priority (lineFrame f) }
  | none => { s with framer.up := .boundary }

/-- A byte of a frame is placed, and what is left of it; after the last byte of the check the queues are asked (R127). -/
def placeFrameByte (priority : Bool) (left : List Byte) (s : State) : State :=
  if left = [] then askQueues (frameSent priority s) else { s with framer.up := .frame priority left }

/-- The next byte of a stream that has something in progress; an idle one sends a fill pair (R9). -/
def nextByte (s : State) : Byte × State :=
  match s.framer.up with
  | .frame priority (b :: left) => (b, placeFrameByte priority left s)
  | .fill (b :: left) => (b, if left = [] then askQueues s else { s with framer.up := .fill left })
  | .boundary | .frame _ [] | .fill [] => (0#8, { s with framer.up := .fill [0#8] })

/-- The next byte of the stream falls due: a stream idle at a boundary asks the queues first (R9, R127). -/
def upByte (s : State) : Byte × State :=
  match s.framer.up with
  | .boundary => nextByte (askQueues s)
  | .frame .. | .fill _ => nextByte s

/-- The next `n` bytes of the stream, in order. -/
def upBytes : Nat → State → List Byte × State
  | 0, s => ([], s)
  | n + 1, s =>
    let x := upByte s
    let y := upBytes n x.2
    (x.1 :: y.1, y.2)

/-! ## A transmitted symbol -/

/-- The overhead share's byte (R12): the next byte of the message in transmission, or the fill byte. -/
def overheadByte (s : State) : Byte × State :=
  match s.overhead.sending with
  | some x =>
    match x.left with
    | b :: left =>
      (b, { s with overhead.sending := some { x with left := left, cycle := s.time.cycleCount } })
    | [] => (0x00#8, s)
  | none => (0x00#8, s)

/-- The two bytes of a slot upstream: its port's samples when it carries voice, otherwise the idle code (R5, R117);
nothing when it is not laid out. -/
def slotUp (voice1 voice2 : Byte × Byte) (r : SlotRec) : List Byte :=
  let pair := if r.carriesVoice then
      match r.port? with
      | some .p1 => voice1
      | some .p2 => voice2
      | none => idlePair
    else idlePair
  if r.laid then [pair.1, pair.2] else []

/-- The bits of the payload, mapped onto the tones in ascending index from a tone on; a tone with no bits takes none
(R3). -/
def mapTones : Nat → List ToneRec → List Bool → List (Nat × List Bool)
  | _, [], _ => []
  | tone, r :: rest, bits =>
    if r.bits = 0 then mapTones (tone + 1) rest bits
    else (tone, bits.take r.bits) :: mapTones (tone + 1) rest (bits.drop r.bits)

/-- A payload of B bits: the bytes, then pad bits sent as 0 (R4). -/
def padded (total : Nat) (bytes : List Byte) : List Bool :=
  let bits := bytes.flatMap bitsOf
  bits ++ List.replicate (total - bits.length) false

/-- The gains applied to the TX tones from tone 6 (R17). -/
def txGains (bank : List ToneRec) : List (Nat × Int) :=
  (List.range bank.length).map fun i => (firstTone .tx + i, (bank.getD i ⟨0, 0⟩).gain)

/-- The bytes of an upstream symbol in the order of R4, with the state they leave: the overhead share, the slots in the
layout, and the data bytes, none of them in a quiet symbol (R8). -/
def symbolBytes (quiet : Bool) (voice1 voice2 : Byte × Byte) (s : State) : List Byte × State :=
  let o := overheadByte s
  let d := upBytes (dataBytes s.framer.tx quiet) o.2
  (o.1 :: (slotUp voice1 voice2 s.slots.s0 ++ slotUp voice1 voice2 s.slots.s1 ++ d.1), d.2)

/-- An upstream symbol in SERVICE. -/
def compose (voice1 voice2 : Byte × Byte) (s : State) : State :=
  let pos := s.time.symbolCounter
  let t := arbitrate { s with impulse := s.impulse.promoteUp pos }
  let quiet := t.impulse.quietUp pos
  let x := symbolBytes quiet voice1 voice2 t
  let t := if quiet then count .quietSymbols x.2 else x.2
  { t with framer := { t.framer with
    lineOut := .payload (mapTones 6 (s.tones.active .tx) (padded s.framer.tx.b x.1))
    lineGains := txGains (s.tones.active .tx) } }

/-- TRANSMIT_SYMBOL (R4): the upstream symbol of the number about to be received (R1; log entry 10). -/
def execTransmitSymbol (voice1 voice2 : Byte × Byte) (s : State) : Host.Outcome State Fault Refusal :=
  run (whenDue (s.line.state == .service && s.time.symbolNo < 40) (compose voice1 voice2)) s

/-! ## The overhead queue's events -/

/-- A response whose last byte has been carried leaves its channel's list (R191). -/
def dropTaken (r : Response) (l : List ListedResponse) : List ListedResponse :=
  l.eraseP fun e => e.taken && e.response == r

/-- What waits on the sending of a message (R75, R76, R185, R191, R194); `c` is the cycle that carried its last byte. -/
def afterSending (m : Msg) (c : Nat) (s : State) : State :=
  match m with
  | .quietSchedule .. => scheduleSent c s
  | .quietCancel => endDownWindows s
  | .powerLoss _ => powerLossCheck { s with supply.powerLossWaiting := false }
  | .response r => restartDoneSent r { s with mgmt.operator.responses := dropTaken r s.mgmt.operator.responses }
  | _ => s

/-- The message in transmission has ended: the arbiter chooses the next one, and what waited on the sending happens. -/
def messageEnds (x : Sending) (s : State) : State :=
  afterSending x.msg x.cycle (arbitrate { s with overhead.sending := none })

/-- OVERHEAD_MESSAGE_SENT (R12). -/
def execOverheadMessageSent (s : State) : Host.Outcome State Fault Refusal :=
  run (fun s =>
    match s.overhead.sending with
    | some x => if x.left = [] then messageEnds x s else s
    | none => s) s

/-- OVERHEAD_ROOM_FILL (R14): the queue has 16 rooms. -/
def execOverheadRoomFill (s : State) : Host.Outcome State Fault Refusal := run (fillRooms 16) s

/-- R16: a message with a length above 512, or one whose kind the part does not receive or whose content has not the form
its kind requires. -/
def isDiscarded (kind : Byte) (length : Nat) (content : List Byte) : Bool :=
  512 < length || (length == content.length && (readMessage kind content).isNone)

/-- RECEIVED_MESSAGE_DISCARDED (R16): nothing is counted, and the receive side is between messages. -/
def execReceivedMessageDiscarded (kind : Byte) (length : Nat) (content : List Byte) (s : State) :
    Host.Outcome State Fault Refusal :=
  run (whenDue (s.line.state == .service && kind != 0#8 && isDiscarded kind length content) fun s =>
    { s with overhead.received := [] }) s

end Sys2Proof.Machine
end

