-- ==== Sys2Proof/Machine/Dispatch.lean ====
section
/-! DEFINITION. One arm per command: `exec` gives each its meaning, everything but the queue of waiting commands. -/
namespace Sys2Proof.Machine

/-- The effect of a command. -/
def exec (i : Instr) (s : State) : Host.Outcome State Fault Refusal :=
  match i with
  | .powerOn mains battery loop1 loop2 => Sys2Proof.Machine.execPowerOn mains battery loop1 loop2 s
  | .restartTakesEffect => Sys2Proof.Machine.execRestartTakesEffect s
  | .cycleBoundary samples energy nominal => Sys2Proof.Machine.execCycleBoundary samples energy nominal s
  | .secondBoundary => Sys2Proof.Machine.execSecondBoundary s
  | .intervalClose => Sys2Proof.Machine.execIntervalClose s
  | .receiveSymbol ratios tones => Sys2Proof.Machine.execReceiveSymbol ratios tones s
  | .transmitSymbol voice1 voice2 => Sys2Proof.Machine.execTransmitSymbol voice1 voice2 s
  | .overheadMessageSent => Sys2Proof.Machine.execOverheadMessageSent s
  | .overheadRoomFill => Sys2Proof.Machine.execOverheadRoomFill s
  | .receivedMessageDiscarded kind length content => Sys2Proof.Machine.execReceivedMessageDiscarded kind length content s
  | .trainingRepeat msg => Sys2Proof.Machine.execTrainingRepeat msg s
  | .trainReply kind length content check => Sys2Proof.Machine.execTrainReply kind length content check s
  | .handshakeTimerExpiry => Sys2Proof.Machine.execHandshakeTimerExpiry s
  | .probeStart => Sys2Proof.Machine.execProbeStart s
  | .probeEnd => Sys2Proof.Machine.execProbeEnd s
  | .txTable header content check => Sys2Proof.Machine.execTxTable header content check s
  | .entry body check => Sys2Proof.Machine.execEntry body check s
  | .tablesTimerExpiry => Sys2Proof.Machine.execTablesTimerExpiry s
  | .serviceEntry port2First => Sys2Proof.Machine.execServiceEntry port2First s
  | .backoffExpiry => Sys2Proof.Machine.execBackoffExpiry s
  | .noSignalTimeout => Sys2Proof.Machine.execNoSignalTimeout s
  | .retrainSecondsTrigger => Sys2Proof.Machine.execRetrainSecondsTrigger s
  | .severeSecondsTrigger => Sys2Proof.Machine.execSevereSecondsTrigger s
  | .rxShiftStart => Sys2Proof.Machine.execRxShiftStart s
  | .loadingPassDone port2First => Sys2Proof.Machine.execLoadingPassDone port2First s
  | .rateOfferTimeout => Sys2Proof.Machine.execRateOfferTimeout s
  | .rateOffer dir count hold first tones => Sys2Proof.Machine.execRateOffer dir count hold first tones s
  | .rateAccept count => Sys2Proof.Machine.execRateAccept count s
  | .rateDecline reason => Sys2Proof.Machine.execRateDecline reason s
  | .rateWithdraw => Sys2Proof.Machine.execRateWithdraw s
  | .rxShiftApplied => Sys2Proof.Machine.execRxShiftApplied s
  | .txShiftApplied => Sys2Proof.Machine.execTxShiftApplied s
  | .swapOrder dir count entries => Sys2Proof.Machine.execSwapOrder dir count entries s
  | .swapAck => Sys2Proof.Machine.execSwapAck s
  | .swapReject reason => Sys2Proof.Machine.execSwapReject reason s
  | .rxSwapApplied => Sys2Proof.Machine.execRxSwapApplied s
  | .txSwapApplied => Sys2Proof.Machine.execTxSwapApplied s
  | .swapWaitExpiry => Sys2Proof.Machine.execSwapWaitExpiry s
  | .toneHoldExpiry tone => Sys2Proof.Machine.execToneHoldExpiry tone s
  | .predictionTimerExpiry => Sys2Proof.Machine.execPredictionTimerExpiry s
  | .windowTailExpiry => Sys2Proof.Machine.execWindowTailExpiry s
  | .quietScheduleOffer => Sys2Proof.Machine.execQuietScheduleOffer s
  | .quietSchedule dir period cycle symbol width => Sys2Proof.Machine.execQuietSchedule dir period cycle symbol width s
  | .quietCancel dir => Sys2Proof.Machine.execQuietCancel dir s
  | .loopSenseChange port closed elapsed => Sys2Proof.Machine.execLoopSenseChange port closed elapsed s
  | .debounceExpiry port => Sys2Proof.Machine.execDebounceExpiry port s
  | .breakPulseLimitPassed port => Sys2Proof.Machine.execBreakPulseLimitPassed port s
  | .breakTimerExpiry port => Sys2Proof.Machine.execBreakTimerExpiry port s
  | .makeTimerExpiry port => Sys2Proof.Machine.execMakeTimerExpiry port s
  | .toneTimerExpiry port => Sys2Proof.Machine.execToneTimerExpiry port s
  | .cadencePhaseEnd => Sys2Proof.Machine.execCadencePhaseEnd s
  | .ringTimerExpiry order => Sys2Proof.Machine.execRingTimerExpiry order s
  | .seizureWaitExpiry slot => Sys2Proof.Machine.execSeizureWaitExpiry slot s
  | .seizeAck slot => Sys2Proof.Machine.execSeizeAck slot s
  | .seizeNak slot => Sys2Proof.Machine.execSeizeNak slot s
  | .release slot reason => Sys2Proof.Machine.execRelease slot reason s
  | .ring ports cadence order => Sys2Proof.Machine.execRing ports cadence order s
  | .ringStop order => Sys2Proof.Machine.execRingStop order s
  | .mgmtRequest request => Sys2Proof.Machine.execMgmtRequest request s
  | .homeFrameReceived frame checkAgrees => Sys2Proof.Machine.execHomeFrameReceived frame checkAgrees s
  | .homeLinkUp => Sys2Proof.Machine.execHomeLinkUp s
  | .homeLinkDown => Sys2Proof.Machine.execHomeLinkDown s
  | .pauseRepeatExpiry => Sys2Proof.Machine.execPauseRepeatExpiry s
  | .homeFrameSent => Sys2Proof.Machine.execHomeFrameSent s
  | .homeBufferRoom noticeFirst => Sys2Proof.Machine.execHomeBufferRoom noticeFirst s
  | .programDone agrees => Sys2Proof.Machine.execProgramDone agrees s
  | .eraseComplete allBlank => Sys2Proof.Machine.execEraseComplete allBlank s
  | .testComplete measured => Sys2Proof.Machine.execTestComplete measured s
  | .autoTestStart => Sys2Proof.Machine.execAutoTestStart s
  | .mainsSenseChange present elapsed => Sys2Proof.Machine.execMainsSenseChange present elapsed s
  | .mainsLossQualified => Sys2Proof.Machine.execMainsLossQualified s
  | .mainsReturnQualified => Sys2Proof.Machine.execMainsReturnQualified s
  | .batteryStateChange battery => Sys2Proof.Machine.execBatteryStateChange battery s
  | .powerLossHoldExpiry => Sys2Proof.Machine.execPowerLossHoldExpiry s
  | .lineWakeSignal => Sys2Proof.Machine.execLineWakeSignal s
  | .settleTimerExpiry => Sys2Proof.Machine.execSettleTimerExpiry s
  | .wakeWindowExpiry => Sys2Proof.Machine.execWakeWindowExpiry s
  | .requestDispatch ch => Sys2Proof.Machine.execRequestDispatch ch s
  | .factoryProgramDone agrees => Sys2Proof.Machine.execFactoryProgramDone agrees s
  | .readStatus via => Sys2Proof.Machine.execReadStatus via s
  | .readTones via dir bank first last => Sys2Proof.Machine.execReadTones via dir bank first last s
  | .searchTones via dir pattern limit => Sys2Proof.Machine.execSearchTones via dir pattern limit s
  | .readLine via => Sys2Proof.Machine.execReadLine via s
  | .readImpulse via => Sys2Proof.Machine.execReadImpulse via s
  | .readPort via port => Sys2Proof.Machine.execReadPort via port s
  | .readSlots via => Sys2Proof.Machine.execReadSlots via s
  | .readQueues via => Sys2Proof.Machine.execReadQueues via s
  | .readCounters via => Sys2Proof.Machine.execReadCounters via s
  | .readIntervals via first count => Sys2Proof.Machine.execReadIntervals via first count s
  | .readNoticeState via => Sys2Proof.Machine.execReadNoticeState via s
  | .readArchive via first count => Sys2Proof.Machine.execReadArchive via first count s
  | .readTestResults via => Sys2Proof.Machine.execReadTestResults via s
  | .readSupply via => Sys2Proof.Machine.execReadSupply via s
  | .writeTones via dir first last stride field fn value => Sys2Proof.Machine.execWriteTones via dir first last stride field fn value s
  | .lineControl via action => Sys2Proof.Machine.execLineControl via action s
  | .setMargins via r d m u => Sys2Proof.Machine.execSetMargins via r d m u s
  | .stepMargin via way => Sys2Proof.Machine.execStepMargin via way s
  | .setHoldCeiling via tone => Sys2Proof.Machine.execSetHoldCeiling via tone s
  | .loadThresholds via t => Sys2Proof.Machine.execLoadThresholds via t s
  | .setQuiet via width enable => Sys2Proof.Machine.execSetQuiet via width enable s
  | .setPort via port action => Sys2Proof.Machine.execSetPort via port action s
  | .setPortTiming via port pulse flash make ring => Sys2Proof.Machine.execSetPortTiming via port pulse flash make ring s
  | .loadCadences via entries => Sys2Proof.Machine.execLoadCadences via entries s
  | .setQueueMap via map => Sys2Proof.Machine.execSetQueueMap via map s
  | .setThresholds via t => Sys2Proof.Machine.execSetThresholds via t s
  | .setRoutes via side flags master => Sys2Proof.Machine.execSetRoutes via side flags master s
  | .setArchiveThreshold via severity => Sys2Proof.Machine.execSetArchiveThreshold via severity s
  | .eraseArchiveBlock via block => Sys2Proof.Machine.execEraseArchiveBlock via block s
  | .setArchiveMode via mode => Sys2Proof.Machine.execSetArchiveMode via mode s
  | .clearArchiveStatus via => Sys2Proof.Machine.execClearArchiveStatus via s
  | .runTest via test port force => Sys2Proof.Machine.execRunTest via test port force s
  | .setTestLimits via test warn fail => Sys2Proof.Machine.execSetTestLimits via test warn fail s
  | .setWake via port1 port2 line mainsReturn => Sys2Proof.Machine.execSetWake via port1 port2 line mainsReturn s
  | .restart via => Sys2Proof.Machine.execRestart via s
  | .factoryOpen via => Sys2Proof.Machine.execFactoryOpen via s
  | .factoryClose via => Sys2Proof.Machine.execFactoryClose via s
  | .factoryProgram via value => Sys2Proof.Machine.execFactoryProgram via value s
  | .lossOfPower => Sys2Proof.Machine.execLossOfPower s

end Sys2Proof.Machine
end

