-- ==== Sys2Proof/Machine/Step.lean ====
section
/-! DEFINITION. One step of the block: the command at the front of the queue, or a millisecond of the local timebase. -/
namespace Sys2Proof.Machine

/-- Take the command at the front of the queue and run it with the queue's rest. On an empty queue one millisecond passes
on the local timebase of a part with power: the timers and operations that count milliseconds move (DESIGN CHOICE, log
entry 1). -/
def step (s : State) : Host.Outcome State Fault Refusal :=
  match s.pending with
  | c :: rest => exec c { s with pending := rest }
  | [] => run (advance 2) s

/-- The state with the command a word spells at the front of its queue; the table of this block gives no bits, so no word
spells a command. -/
def State.withFetchWord (s : State) (nbits w : Nat) : State :=
  match decodeTableWord nbits w with
  | some c => { s with pending := c :: s.pending }
  | none => s

end Sys2Proof.Machine
end

