-- ==== Sys2Proof/Safety.lean ====
section
/-! DEFINITION. What counts as a safe step, and the laws of the state that every step is to keep. -/
namespace Sys2Proof.Machine

/-- The command ends in a next state, and that state satisfies `p`. -/
def Completes (c : Instr) (s : State) (p : State → Prop) : Prop := ∃ t, exec c s = .next t ∧ p t

/-- The time base within its ranges (R1, R2): the count 0..255, the second position 0..99, uptime and the symbol counter
of 32 bits, at most 40 symbols in a cycle, and the half millisecond of the local timebase. -/
structure TimeLaw (t : Time) : Prop where
  cycle : t.cycleCount < 256
  symbol : t.symbolNo ≤ 40
  second : t.secondPos < 100
  uptime : t.uptime < 4294967296
  counter : t.symbolCounter < 4294967296
  half : t.halfMs < 2

/-- The flash array is in its canonical form: four blocks, each with slot numbers strictly rising in 0..127 (R150), and a
program in progress is aimed at one of those slots (R157). -/
structure FlashLaw (a : Archive) : Prop where
  blocks : a.flash.length = 4
  form : ∀ b ∈ a.flash, b.wf = true
  aimed : ∀ p, a.program = some p → p.slot < 128

/-- Every list keeps the capacity its rule gives: the overhead transmit queue 16 (R13), the notice queue 24 (R143), the
request queues 4 (R190), the event history 8 (R69), the pending archive list 8 (R154), the interval ring 16 (R136), the
digit buffers 16 (R84), PRIORITY 4096 bytes and BULK 12288 (R125). -/
structure CapacityLaw (s : State) : Prop where
  overhead : s.overhead.queue.length ≤ 16
  notices : s.notices.queue.length ≤ 24
  home : s.mgmt.home.requests.length ≤ 4
  operator : s.mgmt.operator.requests.length ≤ 4
  history : s.impulse.history.length ≤ 8
  archive : s.archive.pendingList.length ≤ 8
  ring : s.perf.ring.length ≤ 16
  digits1 : s.handset.p1.digits.length ≤ 16
  digits2 : s.handset.p2.digits.length ≤ 16
  priority : fillOf s.data.priority ≤ 4096
  bulk : fillOf s.data.bulk ≤ 12288

/-- What a loss of SERVICE leaves (R6, R7, R15, R55): every slot FREE, v and D 0 in both directions, no shift or swap, and
in the overhead channel only NOTICE and MANAGEMENT entries, with nothing in transmission or waiting. -/
structure OutOfService (s : State) : Prop where
  slots : s.slots.allFree = true
  rx : s.framer.rx.v = 0 ∧ s.framer.rx.d = 0
  tx : s.framer.tx.v = 0 ∧ s.framer.tx.d = 0
  shifts : s.shifts.rx.phase = .idle ∧ s.shifts.tx = none ∧ s.shifts.rxSwap = none ∧ s.shifts.txSwap = none
  queue : ∀ q ∈ s.overhead.queue, q.msg.cls = .notice ∨ q.msg.cls = .management
  quiet : s.overhead.sending = none ∧ s.overhead.waitingLine = [] ∧ s.overhead.waitingSignal = []
    ∧ s.overhead.received = []
  schedules : s.impulse.down = none ∧ s.impulse.downOut = none ∧ s.impulse.up = none ∧ s.impulse.upNext = []

/-! ## What a report holds (R198) -/

/-- An enumerated value, 1 byte, "numbered from 0 in the order the owning rule gives its values". -/
def placeIn {α : Type} [DecidableEq α] (names : List α) (x : α) : List Byte := [byteOf (names.idxOf x)]

/-- The bytes of a field that may hold none; those of none are free values, one for each field `id` and place (log entry
13). -/
def orFree (id width : Nat) : Option (List Byte) → List Byte
  | some bytes => bytes
  | none => (List.range width).map (Config.absentByte id)

/-- The data are a report with one list: the 1-byte count and as many whole items as the limit has room for beside what stands
before and after the list. -/
def HoldsList (limit : Nat) (before : List Byte) (items : List (List Byte)) (after data : List Byte) : Prop :=
  ∃ k, k ≤ min 255 items.length ∧ data = before ++ [byteOf k] ++ (items.take k).flatten ++ after ∧
    (k = 0 ∨ before.length + 1 + (items.take k).flatten.length + after.length ≤ limit) ∧
    (k = min 255 items.length ∨ limit < before.length + 1 + (items.take (k + 1)).flatten.length + after.length)

/-! ## The law of ranges -/

/-- The bits and the gain a record or a swap entry may hold (R17, R19). -/
def LegalTone (bits : Nat) (gain : Int) : Prop := (bits = 0 ∨ (2 ≤ bits ∧ bits ≤ 12)) ∧ -10 ≤ gain ∧ gain ≤ 10

def LegalBank (bank : List ToneRec) : Prop := ∀ r ∈ bank, LegalTone r.bits r.gain

/-- The caps of R20: 0 or 2..12. -/
def LegalCaps (settings : List ToneSetting) : Prop := ∀ c ∈ settings, c.cap = 0 ∨ (2 ≤ c.cap ∧ c.cap ≤ 12)

/-- "R ≤ D < M < U", each in 0..63 (R25). -/
def LegalMargins (m : Margins) : Prop := m.r ≤ m.d ∧ m.d < m.m ∧ m.m < m.u ∧ m.u ≤ 63

/-- The margins a Factory Store item holds are margins that R195's check passes. -/
def LegalItem (x : Item) : Prop := ∀ m, x = .margins m → LegalMargins m

/-- The values stay in the ranges their rules give: the margins in order (R25), also those the Factory Store holds or is
being programmed with (R195); bits, gains and caps (R17, R19, R20), also in the swaps in flight (R36, R37); the ring allowance
of the supply state (R95), never exceeded by the units held; the home delivery buffer 6144 bytes (R129); a response list
(R191), which the end of a Factory Store programming can bring to 9 (log entry 28). -/
structure RangeLaw (s : State) : Prop where
  margins : LegalMargins s.tones.margins
  items : ∀ x, ItemState.programmed x ∈ s.factory.items → LegalItem x
  programming : ∀ p, s.factory.programming = some p → LegalItem p.value
  rxA : LegalBank s.tones.rxA
  rxB : LegalBank s.tones.rxB
  txA : LegalBank s.tones.txA
  txB : LegalBank s.tones.txB
  rxSwap : ∀ w, s.shifts.rxSwap = some w → ∀ e ∈ w.entries, LegalTone e.bits e.gain
  txSwap : ∀ w, s.shifts.txSwap = some w → ∀ e ∈ w.entries, LegalTone e.bits e.gain
  rxCaps : LegalCaps s.tones.rxSet
  txCaps : LegalCaps s.tones.txSet
  allowance : s.handset.allowance = allowanceOf s.supply.state
  units : unitsHeld s ≤ s.handset.allowance
  buffer : bufferFill s.data.buffer ≤ 6144
  homeList : s.mgmt.home.responses.length ≤ 9
  operatorList : s.mgmt.operator.responses.length ≤ 9
  carried : ∀ p, s.factory.programming = some p → (s.chan p.via.ch).responses.length ≤ 8

/-! ## The law of the line: budgets and gain sums -/

/-- The bits a layout with `v` slots needs at the least (R6). -/
def floorBits (v : Nat) : Nat := 8 + 16 * v

/-- The slots that are not FREE and not released. -/
def liveSlots (sl : Slots) : Nat := (if sl.s0.live then 1 else 0) + (if sl.s1.live then 1 else 0)

/-- The tables have one entry for each tone of their direction (R17, R20, R21). -/
structure TableShape (t : Tones) : Prop where
  rxA : t.rxA.length = 223
  rxB : t.rxB.length = 223
  txA : t.txA.length = 26
  txB : t.txB.length = 26
  meas : t.meas.length = 223
  rxSet : t.rxSet.length = 223

/-- A swap in flight leaves the bank's bit total as it is and its gain sum at or below 0 (R35, R36, R37). -/
def SwapKeeps (d : Dir) (bank : List ToneRec) (es : List SwapEntry) : Prop :=
  bitTotal (writeEntries d bank es) = bitTotal bank ∧ gainSum (writeEntries d bank es) ≤ 0

/-- The budget law of R6 and the gain-sum law of R19, with what carries them from the end of a pass, an offer, an order or
an admission to the boundary where it takes effect: which line state, shift phase and pass go together, and how many slots the
bank to come must carry. -/
structure LineLaw (s : State) : Prop where
  shape : TableShape s.tones
  gains : gainSum s.tones.rxA ≤ 0 ∧ gainSum s.tones.rxB ≤ 0 ∧ gainSum s.tones.txA ≤ 0 ∧ gainSum s.tones.txB ≤ 0
  budget : s.line.state = .service →
    s.framer.rx = budgetOf (bitTotal (s.tones.active .rx)) s.slots.laidOut ∧
    s.framer.tx = budgetOf (bitTotal (s.tones.active .tx)) s.slots.laidOut ∧
    floorBits s.slots.inUse ≤ bitTotal (s.tones.active .rx) ∧ floorBits s.slots.inUse ≤ bitTotal (s.tones.active .tx)
  outside : s.line.state ≠ .service →
    s.slots.allFree = true ∧ s.framer.rx.v = 0 ∧ s.framer.rx.d = 0 ∧ s.framer.tx.v = 0 ∧ s.framer.tx.d = 0 ∧
    s.shifts.rx.phase = .idle ∧ s.shifts.tx = none ∧ s.shifts.rxSwap = none ∧ s.shifts.txSwap = none
  free : ∀ k, (s.slot k).state = .free → (s.slot k).laid = false
  newest : s.slots.allFree = false → s.slots.newest.isSome = true
  pass : ∀ p, s.loader.running = some p →
    p.s0.length = 223 ∧ p.settings.length = 223 ∧ (p.training = true → p.bank = .a) ∧
    (p.training = true → p.ignored = false → s.line.state = .tables ∧ s.line.rxTableSent = false) ∧
    (p.training = false → p.ignored = false → s.line.state = .service ∧ s.shifts.rx.phase = .pass ∧
      p.bank = otherBank s.tones.rxActive ∧ s.slots.inUse ≤ p.vFloor) ∧
    (s.line.state = .service → p.training = false ∧ p.ignored = false)
  waiting : s.loader.waiting = true →
    (∃ p, s.loader.running = some p ∧ p.ignored = true) ∧ s.line.state = .tables ∧ s.line.rxTableSent = false
  rxTable : s.line.rxTableSent = true →
    s.line.state = .tables ∧ s.loader.running = none ∧ floorBits 0 ≤ bitTotal s.tones.rxA
  txTable : s.line.txTableTaken = true → s.line.state = .tables ∧ floorBits 0 ≤ bitTotal s.tones.txA
  ready : s.line.readySent = true → s.line.rxTableSent = true ∧ s.line.txTableTaken = true
  entry : s.line.entryCount.isSome = true → s.line.readySent = true
  passing : s.shifts.rx.phase = .pass →
    ∃ p, s.loader.running = some p ∧ p.training = false ∧ p.ignored = false
  shifting : s.shifts.rx.phase = .offered ∨ s.shifts.rx.phase = .agreed →
    s.loader.running = none ∧ floorBits (liveSlots s.slots) ≤ bitTotal (s.tones.standby .rx)
  agreed : s.shifts.rx.phase = .agreed → s.shifts.rx.swapCount = s.time.cycleCount →
    floorBits s.slots.inUse ≤ bitTotal (s.tones.standby .rx)
  txShift : s.shifts.tx.isSome = true → floorBits s.slots.inUse ≤ bitTotal (s.tones.standby .tx)
  rxSwap : ∀ w, s.shifts.rxSwap = some w →
    s.shifts.rx.phase = .idle ∧ s.loader.running = none ∧ SwapKeeps .rx (s.tones.active .rx) w.entries
  txSwap : ∀ w, s.shifts.txSwap = some w →
    s.shifts.tx = none ∧ SwapKeeps .tx (s.tones.active .tx) w.entries
  claim : ∀ c, s.tester.claim = some c →
    c.lineBefore.isSome = lineTest c.test ∧ (lineTest c.test = true → s.line.state = .test)

end Sys2Proof.Machine
end

