-- ==== Sys2Proof/WellFormed.lean ====
section
/-! DEFINITION. Well-formed commands: the operand ranges that the form of a message, a request or a frame already holds
when it reaches its owner (R198, R199), and those of a measured quantity. A meaning is total on every operand; a
statement that speaks of a field's range takes these as its premises. -/
namespace Sys2Proof

/-- A byte-wide value. -/
def isByte (n : Nat) : Bool := n < 256

/-- A value of 16 bits. -/
def is16 (n : Nat) : Bool := n < 65536

/-- A signed byte. -/
def isSignedByte (x : Int) : Bool := -128 ≤ x && x ≤ 127

/-- A numeric argument of a request: 4 bytes, signed (R198). -/
def isNum (x : Int) : Bool := -2147483648 ≤ x && x ≤ 2147483647

/-- A pair of bits and gain of RATE_OFFER (R199). -/
def toneForm (t : Nat × Int) : Bool := isByte t.1 && isSignedByte t.2

/-- An entry of SWAP_ORDER (R199). -/
def swapForm (e : SwapEntry) : Bool := isByte e.tone && isByte e.bits && isSignedByte e.gain

/-- How a request reached the part: a 16-bit tag; a 6-byte source address from the home link, none in the overhead
channel (R198). -/
def viaForm (v : Via) : Bool :=
  is16 v.tag && v.addr.length == (match v.ch with | .home => 6 | .operator => 0)

/-- Eight entries whose lists have a 1-byte count (R102, R198). -/
def cadencesForm (es : List (List (Int × Int))) : Bool :=
  es.length == 8 && es.all fun e => isByte e.length && e.all fun p => isNum p.1 && isNum p.2

def valueForm : FactoryValue → Bool
  | .identity serial revision => serial < 4294967296 && isNum revision
  | .managementType v => isNum v
  | .thresholds t => t.length == 11 && t.all isNum
  | .cadences es => cadencesForm es
  | .margins r d m u => isNum r && isNum d && isNum m && isNum u
  | .holdCeiling t => isNum t
  | .unknown => true

/-- The operands have the form their message, frame or request gives them. -/
def wellFormed : Instr → Bool
  | .cycleBoundary samples _ _ => samples.length ≤ 223
  | .receiveSymbol ratios tones =>
    ratios.length ≤ 223 && tones.length ≤ 223 && tones.all fun bits => bits.length ≤ 12
  | .receivedMessageDiscarded _ length content => is16 length && content.length ≤ 512
  | .trainReply _ length content check => length.length == 2 && content.length ≤ 65535 && check.length == 2
  | .txTable header content check => header.length == 3 && content.length ≤ 65535 && check.length == 2
  | .entry body check => 3 ≤ body.length && body.length ≤ 65538 && check.length == 2
  | .rateOffer _ count _ first tones =>
    isByte count && 1 ≤ tones.length && tones.length ≤ 223 && first + tones.length ≤ 256 && tones.all toneForm
  | .rateAccept count => isByte count
  | .rateDecline reason => isByte reason
  | .swapOrder _ count entries =>
    isByte count && 1 ≤ entries.length && entries.length ≤ 4 && entries.all swapForm
  | .swapReject reason => isByte reason
  | .toneHoldExpiry tone => isByte tone
  | .quietSchedule _ period cycle symbol width => is16 period && isByte cycle && symbol ≤ 39 && isByte width
  | .ringTimerExpiry order => is16 order
  | .release _ reason => isByte reason
  | .ring _ cadence order => cadence ≤ 7 && is16 order
  | .ringStop order => is16 order
  | .mgmtRequest request => 5 ≤ request.length && request.length ≤ 512
  | .homeFrameReceived frame _ => 18 ≤ frame.length
  | .readStatus v | .readLine v | .readImpulse v | .readSlots v | .readQueues v | .readCounters v
  | .readNoticeState v | .readTestResults v | .readSupply v | .clearArchiveStatus v | .restart v | .factoryOpen v
  | .factoryClose v => viaForm v
  | .readTones v _ _ first last => viaForm v && isNum first && isNum last
  | .searchTones v _ _ limit => viaForm v && isNum limit
  | .readPort v port => viaForm v && isNum port
  | .readIntervals v first count => viaForm v && isNum first && isNum count
  | .readArchive v first count => viaForm v && isNum first && isNum count
  | .writeTones v _ first last stride _ _ value =>
    viaForm v && isNum first && isNum last && isNum stride && isNum value
  | .lineControl v _ => viaForm v
  | .setMargins v r d m u => viaForm v && isNum r && isNum d && isNum m && isNum u
  | .stepMargin v _ => viaForm v
  | .setHoldCeiling v tone => viaForm v && isNum tone
  | .loadThresholds v t => viaForm v && t.length == 11 && t.all isNum
  | .setQuiet v width _ => viaForm v && isNum width
  | .setPort v port _ => viaForm v && isNum port
  | .setPortTiming v port pulse flash make ring =>
    viaForm v && isNum port && isNum pulse && isNum flash && isNum make && isNum ring
  | .loadCadences v entries => viaForm v && cadencesForm entries
  | .setQueueMap v map => viaForm v && map.length == 8 && map.all (· ≤ 2)
  | .setThresholds v t => viaForm v && t.length == 12 && t.all isNum
  | .setRoutes v _ flags _ => viaForm v && flags.length == 8
  | .setArchiveThreshold v severity => viaForm v && severity ≤ 3
  | .eraseArchiveBlock v block => viaForm v && isNum block
  | .setArchiveMode v mode => viaForm v && mode ≤ 1
  | .runTest v test port _ => viaForm v && test ≤ 4 && isNum port
  | .setTestLimits v test warn fail => viaForm v && test ≤ 4 && isNum warn && isNum fail
  | .setWake v _ _ _ _ => viaForm v
  | .factoryProgram v value => viaForm v && valueForm value
  | .powerOn _ _ _ _ | .restartTakesEffect | .secondBoundary | .intervalClose | .transmitSymbol _ _
  | .overheadMessageSent | .overheadRoomFill | .trainingRepeat _ | .handshakeTimerExpiry | .probeStart | .probeEnd
  | .tablesTimerExpiry | .serviceEntry _ | .backoffExpiry | .noSignalTimeout | .retrainSecondsTrigger
  | .severeSecondsTrigger | .rxShiftStart | .loadingPassDone _ | .rateOfferTimeout | .rateWithdraw | .rxShiftApplied
  | .txShiftApplied | .swapAck | .rxSwapApplied | .txSwapApplied | .swapWaitExpiry | .predictionTimerExpiry
  | .windowTailExpiry | .quietScheduleOffer | .quietCancel _ | .loopSenseChange _ _ _ | .debounceExpiry _
  | .breakPulseLimitPassed _ | .breakTimerExpiry _ | .makeTimerExpiry _ | .toneTimerExpiry _ | .cadencePhaseEnd
  | .seizureWaitExpiry _ | .seizeAck _ | .seizeNak _ | .homeLinkUp | .homeLinkDown | .pauseRepeatExpiry
  | .homeFrameSent | .homeBufferRoom _ | .programDone _ | .eraseComplete _ | .testComplete _ | .autoTestStart
  | .mainsSenseChange _ _ | .mainsLossQualified | .mainsReturnQualified | .batteryStateChange _ | .powerLossHoldExpiry
  | .lineWakeSignal | .settleTimerExpiry | .wakeWindowExpiry | .requestDispatch _ | .factoryProgramDone _
  | .lossOfPower => true

end Sys2Proof
end

