-- ==== Sys2Proof/Certificates/Slice0/Obligations.lean ====
section
/-! DEFINITION. The statements for the provers, family by family. `Completes c s p` says that the command ends in a next
state that satisfies `p`; the clause `t = ... t.x ...` of a statement names every block the command may change, and so says
that it changes no other. A hypothesis `s.powered = true` is the model's own (log entry 4). -/

open Sys2Proof Sys2Proof.Machine

/-! ## The step -/

/-- The command at the front of the queue runs with the queue's rest; on an empty queue a part with power lets one
millisecond of the local timebase pass (the model's choice, log entry 1). -/
def Obligations.StepRunsFront : Prop :=
  (∀ (c : Instr) (rest : List Instr) (s : State),
    step { s with pending := c :: rest } = exec c { s with pending := rest }) ∧
  (∀ s : State, s.powered = true → step { s with pending := [] } = .next (advance 2 { s with pending := [] })) ∧
  (∀ s : State, s.powered = false → step { s with pending := [] } = .next { s with pending := [] })

/-- No command ends in a fault or a refusal, in any state, which is read from the spec as a whole (log entry 39), and no command
changes the queue of waiting commands, which is the model's own (log entry 37). -/
def Obligations.EveryCommandCompletes : Prop := ∀ (c : Instr) (s : State), Completes c s fun t => t.pending = s.pending

/-- A part without power takes no command but POWER_ON (the model's choice, log entry 4). -/
def Obligations.UnpoweredTakesNothing : Prop :=
  ∀ (c : Instr) (s : State), s.powered = false → (∀ m b x y, c ≠ .powerOn m b x y) → exec c s = .next s

/-- R1, R2: every step keeps the time base within its ranges. -/
def Obligations.TimeLawIsKept : Prop :=
  ∀ s t : State, TimeLaw s.time → step s = .next t → TimeLaw t.time

/-- R150: every step keeps the flash array in its canonical form. -/
def Obligations.FlashLawIsKept : Prop :=
  ∀ s t : State, FlashLaw s.archive → step s = .next t → FlashLaw t.archive

/-- R13, R69, R84, R125, R136, R143, R154, R190: every step keeps the overhead transmit queue, the notice queue, the request
queues, the event history, the pending archive list, the interval ring, the digit buffers and PRIORITY and BULK within their
capacities. (The home delivery buffer and the response lists stand in RangeLawIsKept.) -/
def Obligations.CapacityLawIsKept : Prop :=
  ∀ s t : State, CapacityLaw s → step s = .next t → CapacityLaw t

/-- The reset state keeps the laws (that its flash is blank is the model's choice, log entry 7). -/
def Obligations.ResetKeepsTheLaws : Prop :=
  TimeLaw State.reset.time ∧ FlashLaw State.reset.archive ∧ CapacityLaw State.reset ∧ RangeLaw State.reset ∧
    LineLaw State.reset

/-! ## Start-up and time -/

/-- R179, R193: POWER_ON takes the part up from any state, also from one of a part that still has power (log entry 4): the supply
state is chosen from the inputs, every count of the time base is 0, the request, response and overhead queues are empty,
STARTED is raised first with sequence 0, and the line enters HANDSHAKE, or stays OFF when the supply is DORMANT. -/
def Obligations.PowerOnComesUp : Prop :=
  ∀ (mains : Bool) (b : Battery) (l1 l2 : Bool) (s : State),
    Completes (.powerOn mains b l1 l2) s fun t =>
      t.powered = true ∧ t.time = ⟨0, 0, 0, 0, 0, false, false, 0⟩ ∧
      t.supply.state = (if mains then .full else if b = .good then .hold else .dormant) ∧
      t.line.state = (if mains = false ∧ b ≠ .good then .off else .handshake) ∧
      t.mgmt.resetKind = .powerOn ∧ t.mgmt.restart = none ∧ t.factory.isOpen = false ∧
      t.mgmt.home = Chan.reset ∧ t.mgmt.operator = Chan.reset ∧ t.overhead = Overhead.reset ∧
      (t.notices.queue.head?.map fun e => (e.notice.sequence, e.notice.code)) = some (0, .started) ∧
      t.handset.p1.closed = l1 ∧ t.handset.p2.closed = l2

/-- R194: a due restart keeps uptime, the second position, the power-on count and the flash, closes the interval with the
partial flag, empties the request, response and overhead queues, PRIORITY, BULK and the home delivery buffer, and closes the
Factory Store. R137: the interval it begins has the next number, the present uptime as its start and 0 seconds, and is partial;
a close that was due at the restart is due no more, since that interval closes at the next multiple of 900 (the model's reading,
log entry 59). (The notice queue and the reset tables are not stated here.) -/
def Obligations.RestartTakesEffect : Prop :=
  ∀ (s : State) (r : PendingRestart),
    s.powered = true → s.mgmt.restart = some r → (r.unsent = 0 ∨ r.timer = 0) → s.factory.programming = none →
    Completes .restartTakesEffect s fun t =>
      t.time = { s.time with cycleCount := 0, symbolNo := 0, symbolCounter := 0, intervalDue := false } ∧
      t.mgmt.resetKind = .restart r.origin ∧ t.mgmt.restart = none ∧
      t.mgmt.home = Chan.reset ∧ t.mgmt.operator = Chan.reset ∧ t.overhead = Overhead.reset ∧
      t.data.priority = [] ∧ t.data.bulk = [] ∧ t.data.buffer = [] ∧
      t.factory = ⟨s.factory.items, false, none⟩ ∧
      t.archive.powerOns = s.archive.powerOns ∧ t.archive.flash = s.archive.flash ∧
      t.perf.ring.getLast? =
        some ⟨s.perf.number, s.perf.start, s.perf.seconds, true, s.perf.counters, s.perf.crossings⟩ ∧
      t.perf.number = (s.perf.number + 1) % 65536 ∧ t.perf.start = s.time.uptime ∧ t.perf.seconds = 0 ∧
      t.perf.begunByRestart = true

/-- R1, R2: a cycle boundary advances the count and the second position and starts the cycle's symbols again; uptime and
the symbol counter stay. R52, R7: in SERVICE a cycle whose received energy is below one sixteenth of nominal counts on the
loss-of-signal timer and any other sets it to 0, and the budget records count the slots in use (with no slot about to
become FREE, so that the dormancy condition is not judged). R91: in OFF, HANDSHAKE, WAIT and TEST every codec is passed the
pairs of the cycle that no received symbol has brought (that the boundary passes them is the model's choice, log entry 26, and so
is the end of a tone's parts at cycle boundaries, log entry 78). -/
def Obligations.CycleBoundaryCounts : Prop :=
  ∀ (samples : List Int) (energy nominal : Nat) (s : State), s.powered = true →
    Completes (.cycleBoundary samples energy nominal) s fun t =>
      t.time = { s.time with
        cycleCount := (s.time.cycleCount + 1) % 256, symbolNo := 0, secondPos := (s.time.secondPos + 1) % 100
        secondDue := s.time.secondPos == 99 } ∧
      t.tones.goodSymbols = 0 ∧
      (s.line.state = .service → s.slots.s0.released = false → s.slots.s1.released = false →
        t.line.state = .service ∧
        t.line.losTimer =
          (if 16 * energy < nominal then (if s.line.losTimer < 50 then s.line.losTimer + 1 else s.line.losTimer) else 0) ∧
        t.framer.rx = budgetOf (bitTotal (s.tones.active .rx)) s.slots.inUse ∧
        t.framer.tx = budgetOf (bitTotal (s.tones.active .tx)) s.slots.inUse) ∧
      ((s.line.state = .off ∨ s.line.state = .handshake ∨ s.line.state = .wait ∨ s.line.state = .test) →
        s.time.symbolNo < 40 → s.slots.s0.released = false → s.slots.s1.released = false →
        ∀ p, (t.port p).codec = ((List.range 40).drop s.time.symbolNo).map fun n => localPair n (s.port p))

/-- R22: a cycle end in PROBE or SERVICE with at least 20 good symbols takes each tone's sample X, 0..255, into S: the first
sample of PROBE sets S to X, every other moves S by floor((X − S + 4)/8), clamped to 0..255. -/
def Obligations.SampleUpdatesS : Prop :=
  ∀ (samples : List Int) (energy nominal : Nat) (s : State) (i : Nat),
    s.powered = true → 20 ≤ s.tones.goodSymbols → (s.line.state = .probe ∨ s.line.state = .service) →
    i < s.tones.meas.length → i < samples.length → 0 ≤ samples.getD i 0 → samples.getD i 0 ≤ 255 →
    Completes (.cycleBoundary samples energy nominal) s fun t =>
      let old : Int := (s.tones.meas.getD i ⟨0, 0⟩).s
      let x := samples.getD i 0
      ((t.tones.meas.getD i ⟨0, 0⟩).s : Int) =
        if s.line.state = .probe ∧ s.line.probeSampled = false then x
        else max 0 (min 255 (old + (x - old + 4) / 8))

/-- R2: at a second boundary uptime is incremented, wrapping at 32 bits, and a multiple of 900 makes the interval's close
due (R136). -/
def Obligations.SecondBoundaryCounts : Prop :=
  ∀ s : State, s.powered = true → s.time.secondDue = true →
    Completes .secondBoundary s fun t =>
      t.time = { s.time with
        uptime := (s.time.uptime + 1) % 4294967296, secondDue := false
        intervalDue := (s.time.uptime + 1) % 4294967296 % 900 == 0 } ∧
      t.perf.seconds = (if s.perf.seconds < 900 then s.perf.seconds + 1 else s.perf.seconds)

/-- R134: a second that ends in SERVICE counts ES when it is errored and SES when it is severely errored, and empties the
second record; no other counter moves. -/
def Obligations.SecondIsClassified : Prop :=
  ∀ s : State, s.powered = true → s.time.secondDue = true → s.line.state = .service → s.perf.counters.length = 12 →
    (∀ i, s.perf.counters.getD i 0 < 65535) →
    Completes .secondBoundary s fun t =>
      let severe := decide (40 ≤ s.perf.outside ∨ 20 ≤ s.perf.failures ∨ s.perf.noSignal = true)
      let errored := severe || decide (1 ≤ s.perf.outside ∨ 1 ≤ s.perf.failures)
      t.perf.counters.getD 0 0 = s.perf.counters.getD 0 0 + (if errored then 1 else 0) ∧
      t.perf.counters.getD 1 0 = s.perf.counters.getD 1 0 + (if severe then 1 else 0) ∧
      (∀ i, 2 ≤ i → t.perf.counters.getD i 0 = s.perf.counters.getD i 0) ∧
      t.perf.failures = 0 ∧ t.perf.outside = 0 ∧ t.perf.noSignal = false

/-- R136, R137: the current interval closes, partial when the seconds elapsed are not 900 and where a restart began it (that it is
so at 900 seconds too is the model's reading of the two rules, log entry 75), and the next begins with every count 0; the ring
keeps its 16 newest entries. R141, R143, R144, R147: a raised notice makes its archive copy first; it is placed with the
next sequence number not held and the lost count, for the channels of its route that are enabled; at 24 notices the earliest
placed of the lowest severity below it leaves for it, or it is dropped, and the lost count grows first. R14, R145: the room of
the overhead queue takes the notice returned first, then the highest severity, then the earliest placed. R146: a returned
notice is pending again for its channel, marked as returned; one that has left the queue comes back at its newest place (log
entry 41), and is discarded when the channel is not enabled. -/
def Obligations.IntervalsAndNotices : Prop :=
  (∀ s : State, s.powered = true → s.time.intervalDue = true →
    let entry : Interval :=
      ⟨s.perf.number, s.perf.start, s.perf.seconds, s.perf.seconds != 900 || s.perf.begunByRestart, s.perf.counters,
        s.perf.crossings⟩
    exec .intervalClose s = .next { s with
      time.intervalDue := false
      perf := { s.perf with
        ring := (s.perf.ring ++ [entry]).drop (s.perf.ring.length + 1 - 16)
        number := (s.perf.number + 1) % 65536, start := s.time.uptime, seconds := 0, begunByRestart := false
        counters := List.replicate 12 0, crossings := List.replicate 12 false } }) ∧
  (∀ (cls : NoticeClass) (sev : Severity) (code : NoticeCode) (params : List Int) (s : State),
    let copied : State :=
      if s.notices.archiveThreshold.code ≤ sev.code then
        { s with archive := s.archive.arrive ⟨cls, sev, code, s.time.uptime, params⟩ }
      else s
    let home := (s.notices.route cls).home && s.notices.homeEnable
    let overhead := (s.notices.route cls).operator && s.notices.operatorEnable
    let placed (queue : List NoticeEntry) (sequence lost : Nat) : State :=
      { copied with notices := { s.notices with
        queue := queue ++ [⟨⟨sequence, cls, sev, code, s.time.uptime, s.time.cycleCount, params, lost⟩, home, overhead,
          s.notices.nextPlace, none, none⟩]
        nextSequence := (sequence + 1) % 65536, lost := 0, nextPlace := s.notices.nextPlace + 1 } }
    let lostNow := if s.notices.lost < 65535 then s.notices.lost + 1 else s.notices.lost
    (home = false → overhead = false → raise cls sev code params s = copied) ∧
    (home = true ∨ overhead = true →
      (∀ sequence, s.notices.queue.length < 24 → sequence ∉ s.heldSequences →
        (sequence = s.notices.nextSequence ∨
          (s.notices.nextSequence ∈ s.heldSequences ∧ sequence = (s.notices.nextSequence + 1) % 65536)) →
        raise cls sev code params s = placed s.notices.queue sequence s.notices.lost) ∧
      (∀ v ∈ s.notices.queue, s.notices.queue.length = 24 → s.notices.nextSequence ∉ s.heldSequences →
        v.notice.severity.code < sev.code →
        (∀ e ∈ s.notices.queue, e.notice.severity.code < sev.code → v.notice.severity.code ≤ e.notice.severity.code ∧
          (e.notice.severity = v.notice.severity → v.place ≤ e.place)) →
        raise cls sev code params s =
          placed (s.notices.queue.filter fun e => e.place != v.place) s.notices.nextSequence lostNow) ∧
      (s.notices.queue.length = 24 → (∀ e ∈ s.notices.queue, sev.code ≤ e.notice.severity.code) →
        raise cls sev code params s = { copied with notices := { s.notices with lost := lostNow } }))) ∧
  (∀ (e : NoticeEntry) (s : State), s.powered = true → s.line.state = .service → s.overhead.queue.length = 15 →
    s.overhead.waitingLine = [] → s.overhead.waitingSignal = [] → (∀ x ∈ s.mgmt.operator.responses, x.taken = true) →
    e ∈ s.notices.queue → e.overhead = true →
    (∀ x ∈ s.notices.queue, x.overhead = true → x ≠ e →
      (∃ a, e.overheadReturn = some a ∧ ∀ b, x.overheadReturn = some b → a < b) ∨
      (e.overheadReturn = none ∧ x.overheadReturn = none ∧
        (x.notice.severity.code < e.notice.severity.code ∨
          (x.notice.severity = e.notice.severity ∧ e.place < x.place)))) →
    exec .overheadRoomFill s = .next { s with
      overhead := { s.overhead with
        queue := s.overhead.queue ++ [⟨s.overhead.nextPlace, .notice e.notice⟩]
        nextPlace := s.overhead.nextPlace + 1 }
      notices.queue :=
        (s.notices.queue.map fun x =>
          if x.place = e.place then { x with overhead := false, overheadReturn := none } else x).filter
            fun x => x.home || x.overhead }) ∧
  (∀ (x : Notice) (s : State),
    (s.notices.operatorEnable = false → returnNotice .overhead x s = s) ∧
    (s.notices.operatorEnable = true →
      ((∃ e ∈ s.notices.queue, e.notice.sequence = x.sequence) →
        returnNotice .overhead x s = { s with notices := { s.notices with
          queue := s.notices.queue.map fun e =>
            if e.notice.sequence = x.sequence then
              { e with overhead := true, overheadReturn := some s.notices.nextPlace }
            else e
          nextPlace := s.notices.nextPlace + 1 } }) ∧
      ((∀ e ∈ s.notices.queue, e.notice.sequence ≠ x.sequence) → s.notices.queue.length < 24 →
        returnNotice .overhead x s = { s with notices := { s.notices with
          queue := s.notices.queue ++ [⟨x, false, true, s.notices.nextPlace, none, some s.notices.nextPlace⟩]
          nextPlace := s.notices.nextPlace + 1 } }) ∧
      ((∀ e ∈ s.notices.queue, e.notice.sequence ≠ x.sequence) → s.notices.queue.length = 24 →
        (∀ e ∈ s.notices.queue, x.severity.code ≤ e.notice.severity.code) →
        returnNotice .overhead x s = { s with notices := { s.notices with
          lost := if s.notices.lost < 65535 then s.notices.lost + 1 else s.notices.lost } })))

/-- R163, R196: a loss of power cuts a program short and leaves a damaged slot, cuts an erase short and leaves a block
without a header, and spoils a Factory Store item being programmed; every other block of the flash, and every other item,
stays. R153, R154: a record joins the pending list while it holds fewer than 8; at 8 a CRITICAL one takes the room of the
newest that is not, and any other is missed, as is a record that is not CRITICAL in KEEP with no CURRENT block. R156, R157,
R161, R200: the sequencer begins the oldest record that is offered a slot: the next ordinary slot of the CURRENT block, or,
with none CURRENT, for a CRITICAL record the next reserved slot of the last-FULL block; only a CRITICAL record suspends a
running erase. R159, R165: the rotation step acts on the first block after the pointer that is not BAD, by its state and the
archive mode, and SET_ARCHIVE_MODE takes it. The model's choices: a rotation erase leaves its block without header and
records from its beginning (log entry 8), and what KEEP does with a FULL or NEEDS_ERASE block it does also with the target of
an erase that is in progress (log entry 32). A CURRENT block offers its next ordinary slot alone, as R156 says, where the end of
R161 could be read otherwise (log entry 69); what R185 says of the copy of POWER_LOSS holds by the same order (log entry
70). -/
def Obligations.ArchiveKeepsRecords : Prop :=
  (∀ s : State, s.powered = true →
    Completes .lossOfPower s fun t =>
      t.powered = false ∧
      (∀ p, s.archive.program = some p → p.block < s.archive.flash.length →
        (t.archive.block p.block).read p.slot = some .damaged) ∧
      (∀ e, s.archive.erase = some e → e.block < s.archive.flash.length → (t.archive.block e.block).header = none) ∧
      (∀ i, (∀ p, s.archive.program = some p → i ≠ p.block) → s.archive.isTarget i = false →
        t.archive.block i = s.archive.block i) ∧
      (∀ f, s.factory.programming = some f → t.factory.items = s.factory.items.set f.index .spoiled) ∧
      (s.factory.programming = none → t.factory.items = s.factory.items)) ∧
  (∀ (a : Archive) (c : ArchCopy), a.sequence < 4294967295 →
    let missed : Archive := { a with missed := if a.missed < 65535 then a.missed + 1 else a.missed }
    (a.mode = .keep → a.current = none → c.severity ≠ .critical → a.arrive c = missed) ∧
    ((a.mode = .wrap ∨ a.current ≠ none ∨ c.severity = .critical) → a.pendingList.length < 8 →
      a.arrive c = Archive.serve { a with pendingList := a.pendingList ++ [c] }) ∧
    (c.severity ≠ .critical → a.pendingList.length = 8 → a.arrive c = missed) ∧
    (c.severity = .critical → a.pendingList.length = 8 → (∀ x ∈ a.pendingList, x.severity = .critical) →
      a.arrive c = missed) ∧
    (∀ before x after, c.severity = .critical → a.pendingList.length = 8 → a.pendingList = before ++ x :: after →
      x.severity ≠ .critical → (∀ y ∈ after, y.severity = .critical) →
      a.arrive c = Archive.serve { missed with pendingList := before ++ after ++ [c] })) ∧
  (∀ (a : Archive) (before : List ArchCopy) (c : ArchCopy) (after : List ArchCopy), a.sequence + 1 < 4294967295 →
    a.pendingList = before ++ c :: after →
    let began (block slot : Nat) (state : SeqState) (use : BlockEntry → BlockEntry) : Archive :=
      { a with
        pendingList := before ++ after
        program := some ⟨block, slot, ⟨a.sequence, a.powerOns, c, a.missed, [0#8, 0#8, 0#8]⟩, 1⟩
        sequence := a.sequence + 1, missed := 0, state := state, table := a.table.modify block use }
    let ordinary (e : BlockEntry) : BlockEntry := { e with nextOrdinary := e.nextOrdinary + 1 }
    let reserved (e : BlockEntry) : BlockEntry := { e with nextReserved := e.nextReserved + 1 }
    (∀ b, a.state = .ready → a.erase = none → before = [] →
      a.current = some b → (a.entry b).nextOrdinary < 126 →
      a.serve = began b (a.entry b).nextOrdinary .programming ordinary) ∧
    (∀ b, a.state = .ready → a.erase = none → a.current = none → c.severity = .critical →
      (∀ x ∈ before, x.severity ≠ .critical) →
      b < 4 → (a.entry b).state = .full →
      (∀ i, i < 4 → i ≠ b → (a.entry i).state = .full → (a.entry i).sequence < (a.entry b).sequence) →
      126 ≤ (a.entry b).nextReserved → (a.entry b).nextReserved < 128 →
      a.serve = began b (a.entry b).nextReserved .programming reserved) ∧
    (∀ b e, a.state = .erasing → a.erase = some e → e.block ≠ b → c.severity = .critical →
      (∀ x ∈ before, x.severity ≠ .critical) →
      a.current = some b → (a.entry b).nextOrdinary < 126 →
      a.serve = began b (a.entry b).nextOrdinary .suspended ordinary)) ∧
  (∀ a : Archive, (a.state = .programming ∨ a.state = .error ∨
      (a.state = .erasing ∧ ∀ x ∈ a.pendingList, x.severity ≠ .critical)) → a.serve = a) ∧
  (∀ (k : Nat) (s : State), s.archive.current = none → k < 4 →
    (∀ j, j < k → (s.archive.entry ((s.archive.pointer + 1 + j) % 4)).state = .bad) →
    let a := s.archive
    let i := (a.pointer + 1 + k) % 4
    let wanted := (a.entry i).state = .full ∨ (a.entry i).state = .needsErase
    ((a.entry i).state = .erased → a.isTarget i = false → a.pendingList = [] →
      rotate s = { s with archive := { a with
        table := a.table.modify i fun e => { e with state := .current, nextOrdinary := 0, nextReserved := 126 }
        pointer := i, fullReported := false } }) ∧
    (wanted → a.mode = .wrap → a.state = .ready → s.supply.state ≠ .dormant → a.blockSequence < 4294967295 →
      a.pendingList = [] →
      rotate s = { s with archive := { a with
        flash := a.flash.modify i fun _ => ⟨none, []⟩
        table := a.table.modify i fun e => { e with nextOrdinary := 0, nextReserved := 126, damaged := 0 }
        erase := some ⟨i, .internal, 800⟩, state := .erasing } }) ∧
    (wanted → a.mode = .wrap →
      (a.state ≠ .ready ∨ s.supply.state = .dormant ∨ a.blockSequence = 4294967295) → rotate s = s) ∧
    (wanted → a.mode = .keep → a.missed ≤ 65535 →
      let left : State := { s with archive := { a with
        pendingList := a.pendingList.filter fun x => x.severity == .critical
        missed := min 65535 (a.missed + (a.pendingList.filter fun x => x.severity != .critical).length)
        fullReported := true } }
      rotate s = if a.fullReported then left else raise .archive .minor .archiveFull [] left)) ∧
  (∀ (via : Via) (s : State), s.powered = true → channelFree via.ch s = true → via.ch = .operator →
    exec (.setArchiveMode via 0) s = .next (respond via 0x1F .done []
      (rotate { s with archive := { s.archive with mode := .wrap, fullReported := false } })) ∧
    exec (.setArchiveMode via 1) s = .next (respond via 0x1F .done []
      (rotate { s with archive := { s.archive with mode := .keep, fullReported := false } })))

/-! ## The line frame -/

/-- R1, R2, R4, R51, R172: a symbol received in PROBE, TABLES or SERVICE advances the symbol counter and the symbol number
and no other part of the time base; in the other line states it advances the symbol number, passes each codec its pair, and
changes nothing else. That a received symbol passes each codec the pair of its symbol in OFF, HANDSHAKE, WAIT and TEST too is the
model's choice (log entry 26: the outputs and the moments they change). R85, R91: the pair is the refusal tone's in REFUSED, 25
cycles on and 25 off, the no-service tone's in NO_SERVICE, 100 cycles on and 100 off, and the idle code otherwise, the on part
first; that these parts are counted by the tone timer in cycles, and so end at cycle boundaries, is the model's choice (log entry
78). A symbol after the fortieth of a cycle has no effect, which is the model's choice (log entry 10). What the symbol carries in
SERVICE and how it is judged is not stated here. -/
def Obligations.ReceivedSymbolCounts : Prop :=
  (∀ (ratios : List Int) (tones : List (List Bool)) (s : State), s.powered = true → s.time.symbolNo < 40 →
    (s.line.state = .probe ∨ s.line.state = .tables ∨ s.line.state = .service) →
    Completes (.receiveSymbol ratios tones) s fun t =>
      t.time = { s.time with
        symbolNo := s.time.symbolNo + 1, symbolCounter := (s.time.symbolCounter + 1) % 4294967296 }) ∧
  (∀ (ratios : List Int) (tones : List (List Bool)) (s : State), s.powered = true → s.time.symbolNo < 40 →
    (s.line.state = .off ∨ s.line.state = .handshake ∨ s.line.state = .wait ∨ s.line.state = .test) →
    let heard (r : PortRec) : PortRec := { r with codec := [localPair s.time.symbolNo r] }
    exec (.receiveSymbol ratios tones) s = .next { s with
      time.symbolNo := s.time.symbolNo + 1
      handset := { s.handset with p1 := heard s.handset.p1, p2 := heard s.handset.p2 } }) ∧
  (∀ (n : Nat) (r : PortRec),
    let idle := (Config.idleCode, Config.idleCode)
    let k := 6000 - r.toneTimer.getD 0
    localPair n r = match r.state with
      | .refused => if k % 50 < 25 then Config.toneSamples 0 (40 * k + n) else idle
      | .noService => if k % 200 < 100 then Config.toneSamples 1 (40 * k + n) else idle
      | _ => idle) ∧
  (∀ (ratios : List Int) (tones : List (List Bool)) (s : State), 40 ≤ s.time.symbolNo →
    exec (.receiveSymbol ratios tones) s = .next s)

/-- R3, R4: the upstream symbol carries a payload of exactly B bits, on tones of 6..31 in ascending order, and composing it
changes nothing outside the channels, the queues, the counters and the records they report to. -/
def Obligations.TransmittedSymbolHasBBits : Prop :=
  ∀ (v1 v2 : Byte × Byte) (s : State), s.powered = true → s.line.state = .service → s.time.symbolNo < 40 →
    (s.tones.active .tx).length = 26 → s.framer.tx.b = bitTotal (s.tones.active .tx) →
    8 + 16 * s.slots.laidOut + 8 * s.framer.tx.d ≤ s.framer.tx.b →
    Completes (.transmitSymbol v1 v2) s fun t =>
      (∃ tones, t.framer.lineOut = .payload tones ∧ (tones.flatMap (·.2)).length = s.framer.tx.b ∧
        (∀ x ∈ tones, 6 ≤ x.1 ∧ x.1 ≤ 31) ∧ List.Pairwise (fun x y => x.1 < y.1) tones) ∧
      t = { s with
        impulse := t.impulse, overhead := t.overhead, framer := t.framer, data := t.data, perf := t.perf
        archive := t.archive, notices := t.notices }

/-- R9, R10: the receiver, ALIGNED at a frame boundary, takes a frame as the Framer sends it (length, content, check) and
hands exactly its content to the Data Queue Unit. -/
def Obligations.SentFrameIsReceived : Prop :=
  ∀ (content : List Byte) (s : State), 64 ≤ content.length → content.length ≤ 1536 →
    s.framer.window = [] → s.framer.hunting = false →
    takeData (lineFrame content) s = deliverDown content s

/-- R12, R16, R199: the bytes of a message the part sends in a kind it also receives collect to its kind and content, and
read back as the message; RATE_OFFER and SWAP_ORDER carry direction RX, and RATE_OFFER count 0 and first tone 33 (R58, R36).
R14, R191: room in the overhead transmit queue goes to the waiting LINE_CONTROL messages, then to the waiting SIGNALLING
messages, oldest first, then to the first waiting response; the entries already there stay, and the queue never holds more
than 16. R121 to R126: a frame from the home link whose check fails or whose length lies outside 64..1536 is dropped and
counted; flow control is passed over; in DORMANT any other frame that is no management frame is dropped and counted; else it
joins the queue its priority value maps to while it fits, PRIORITY to 4096 bytes and BULK to 12288, is dropped and counted
when it does not, and goes nowhere when the map discards it; BULK above 10240 bytes asserts flow pause, with a pause frame due
and its repeat running. R122, R190, R198: a management frame, untagged or tagged, whose message is an MGMT_REQUEST of at least 5
bytes joins the home request queue with the source address of the frame, in every supply state; at a full queue it is answered
BUSY, or discarded when the response list holds 8; one whose message has another kind, is shorter than 5 bytes or runs past the
frame's last four bytes (where the message ends is the model's reading, log entry 27) is discarded. -/
def Obligations.MessagesAndFramesAreQueued : Prop :=
  (∀ (m : Msg) (i : Instr),
    ((∃ c, c < 256 ∧ m = .rateAccept c ∧ i = .rateAccept c) ∨ (∃ r, r < 256 ∧ m = .rateDecline r ∧ i = .rateDecline r) ∨
      (m = .rateWithdraw ∧ i = .rateWithdraw) ∨ (m = .swapAck ∧ i = .swapAck) ∨
      (∃ r, r < 256 ∧ m = .swapReject r ∧ i = .swapReject r) ∨ (m = .quietCancel ∧ i = .quietCancel .rx) ∨
      (∃ p c x w, p < 65536 ∧ c < 256 ∧ x < 40 ∧ w < 256 ∧ m = .quietSchedule p c x w ∧
        i = .quietSchedule .rx p c x w) ∨
      (∃ k w, m = .release k w ∧ i = .release k w.code) ∨
      (∃ hold tones, 1 ≤ tones.length ∧ tones.length ≤ 223 ∧
        (∀ x ∈ tones, x.1 < 256 ∧ -128 ≤ x.2 ∧ x.2 ≤ 127) ∧ m = .rateOffer hold tones ∧
        i = .rateOffer .rx 0 hold 33 tones) ∨
      (∃ c es, c < 256 ∧ 1 ≤ es.length ∧ es.length ≤ 4 ∧
        (∀ e ∈ es, e.tone < 256 ∧ e.bits < 256 ∧ -128 ≤ e.gain ∧ e.gain ≤ 127) ∧ m = .swapOrder c es ∧
        i = .swapOrder .rx c es)) →
    m.bytes.foldl (fun x b => collect x.1 b) ([], none) = ([], some (m.kind, m.content)) ∧
    readMessage m.kind m.content = some i) ∧
  (∀ (s : State) (m : Msg) (rest : List Msg), s.powered = true → s.overhead.queue.length < 16 →
    (s.overhead.waitingLine = m :: rest ∨ (s.overhead.waitingLine = [] ∧ s.overhead.waitingSignal = m :: rest)) →
    Completes .overheadRoomFill s fun t =>
      (∃ e more, t.overhead.queue = s.overhead.queue ++ e :: more ∧ e.msg = m) ∧
      (s.overhead.waitingLine = m :: rest → t.overhead.waitingLine <:+ rest) ∧
      (s.overhead.waitingLine = [] → t.overhead.waitingLine = [] ∧ t.overhead.waitingSignal <:+ rest) ∧
      t.overhead.queue.length ≤ 16 ∧
      t = { s with overhead := t.overhead, mgmt := t.mgmt, notices := t.notices }) ∧
  (∀ (s : State) (before : List ListedResponse) (r : Response) (after : List ListedResponse), s.powered = true →
    s.overhead.queue.length = 15 → s.overhead.waitingLine = [] → s.overhead.waitingSignal = [] →
    s.mgmt.operator.responses = before ++ ⟨r, false⟩ :: after → (∀ x ∈ before, x.taken = true) →
    exec .overheadRoomFill s = .next { s with
      overhead := { s.overhead with
        queue := s.overhead.queue ++ [⟨s.overhead.nextPlace, .response r⟩], nextPlace := s.overhead.nextPlace + 1 }
      mgmt.operator.responses := before ++ ⟨r, true⟩ :: after }) ∧
  (∀ (frame : List Byte) (check : Bool) (s : State), s.powered = true → s.data.linkUp = true →
    ((check = false ∨ frame.length < 64 ∨ 1536 < frame.length) →
      exec (.homeFrameReceived frame check) s = .next (count .framesDropped s)) ∧
    (check = true → 64 ≤ frame.length → frame.length ≤ 1536 → typeField frame = 0x8808 →
      exec (.homeFrameReceived frame check) s = .next s) ∧
    (check = true → 64 ≤ frame.length → frame.length ≤ 1536 → typeField frame ≠ 0x8808 →
      typeField frame ≠ s.data.managementType → s.supply.state = .dormant →
      exec (.homeFrameReceived frame check) s = .next (count .framesDropped s)) ∧
    (check = true → 64 ≤ frame.length → frame.length ≤ 1536 → typeField frame ≠ 0x8808 →
      typeField frame ≠ s.data.managementType → s.supply.state ≠ .dormant →
      (destinationOf s frame = .priority →
        exec (.homeFrameReceived frame check) s = .next
          (if fillOf s.data.priority + frame.length ≤ 4096 then
            { s with data.priority := s.data.priority ++ [frame] } else count .framesDropped s)) ∧
      (destinationOf s frame = .discard → exec (.homeFrameReceived frame check) s = .next s) ∧
      (destinationOf s frame = .bulk →
        let fill := fillOf s.data.bulk + frame.length
        (12288 < fill → exec (.homeFrameReceived frame check) s = .next (count .framesDropped s)) ∧
        (fill ≤ 10240 → s.data.flowPause = false →
          exec (.homeFrameReceived frame check) s = .next { s with data.bulk := s.data.bulk ++ [frame] }) ∧
        (10240 < fill → fill ≤ 12288 → s.data.flowPause = true →
          exec (.homeFrameReceived frame check) s = .next { s with data.bulk := s.data.bulk ++ [frame] }) ∧
        (10240 < fill → fill ≤ 12288 → s.data.flowPause = false →
          exec (.homeFrameReceived frame check) s = .next { s with data := { s.data with
            bulk := s.data.bulk ++ [frame], flowPause := true, pauseTimer := some 10
            tx := if s.data.tx = .idle then .pause 0x8808 .longest else s.data.tx
            pauseDue := if s.data.tx = .idle then none else some .longest } })))) ∧
  (∀ (dest src tag body fcs : List Byte) (kind : Byte) (n : Nat) (s : State), s.powered = true → s.data.linkUp = true →
    dest.length = 6 → src.length = 6 → (tag = [] ∨ ∃ a b, tag = [0x81#8, 0x00#8, a, b]) → fcs.length = 4 → n < 65536 →
    s.data.managementType < 65536 → s.data.managementType ≠ 0x8100 → s.data.managementType ≠ 0x8808 →
    let frame := dest ++ src ++ tag ++ be16 s.data.managementType ++ [kind] ++ be16 n ++ body ++ fcs
    let request := body.take n
    64 ≤ frame.length → frame.length ≤ 1536 →
    ((kind ≠ 0x41#8 ∨ body.length < n ∨ n < 5) → exec (.homeFrameReceived frame true) s = .next s) ∧
    (kind = 0x41#8 → n ≤ body.length → 5 ≤ n →
      (s.mgmt.home.requests.length < 4 →
        exec (.homeFrameReceived frame true) s = .next { s with
          mgmt.home.requests := s.mgmt.home.requests ++ [⟨request, src⟩] }) ∧
      (4 ≤ s.mgmt.home.requests.length → s.mgmt.home.responses.length < 8 →
        exec (.homeFrameReceived frame true) s = .next
          (respond ⟨.home, 256 * (request.getD 0 0#8).toNat + (request.getD 1 0#8).toNat, src⟩ (request.getD 2 0#8).toNat
            .busy [] s)) ∧
      (4 ≤ s.mgmt.home.requests.length → 8 ≤ s.mgmt.home.responses.length →
        exec (.homeFrameReceived frame true) s = .next s)))

/-- R12, R13: when a message ends, the arbiter takes from the highest class that has an entry the one earliest in enqueue
order, and it leaves the queue. R191: a response whose last byte has been carried leaves its channel's list. -/
def Obligations.ArbiterChoosesByClass : Prop :=
  (∀ (s : State) (x : Sending) (n : Notice), s.powered = true → s.overhead.sending = some x → x.left = [] →
    x.msg = .notice n → s.overhead.queue ≠ [] →
    Completes .overheadMessageSent s fun t =>
      ∃ q ∈ s.overhead.queue,
        (∀ e ∈ s.overhead.queue, q.msg.cls.rank ≤ e.msg.cls.rank ∧ (q.msg.cls = e.msg.cls → q.place ≤ e.place)) ∧
        t = { s with
          overhead.queue := s.overhead.queue.erase q
          overhead.sending := some ⟨q.place, q.msg, q.msg.bytes, s.time.cycleCount⟩ }) ∧
  (∀ (s : State) (x : Sending) (r : Response) (rest : List ListedResponse), s.powered = true →
    s.overhead.sending = some x → x.left = [] → x.msg = .response r → r.ofRestart = false → s.overhead.queue = [] →
    s.mgmt.operator.responses = ⟨r, true⟩ :: rest →
    exec .overheadMessageSent s = .next { s with overhead.sending := none, mgmt.operator.responses := rest })

/-- R6, R7, R19, with what carries them through R27, R35 to R37, R48, R49, R57 to R62, R105 to R107 and R114: every step
keeps the law of the line; and by it, in SERVICE the overhead share, the slots in the layout and the data bytes of each
direction take at most the bit total of its active bank, and the gain sum of every bank is at most 0. -/
def Obligations.LineLawIsKept : Prop :=
  (∀ s t : State, LineLaw s → step s = .next t → LineLaw t) ∧
  (∀ s : State, LineLaw s →
    (s.line.state = .service → ∀ dir : Dir,
      8 + 16 * s.slots.laidOut + 8 * ((bitTotal (s.tones.active dir) - 8 - 16 * s.slots.laidOut) / 8) ≤
        bitTotal (s.tones.active dir) ∧
      (if dir = .rx then s.framer.rx else s.framer.tx).committed ≤ bitTotal (s.tones.active dir)) ∧
    (∀ (dir : Dir) (k : BankId), gainSum (s.tones.bank dir k) ≤ 0))

/-- R16: a message with a length above 512, or of a kind or form the part does not receive, is discarded: nothing is
counted, and the receive side is between messages. -/
def Obligations.BadMessageIsDiscarded : Prop :=
  ∀ (kind : Byte) (length : Nat) (content : List Byte) (s : State), s.powered = true → s.line.state = .service →
    kind ≠ 0#8 → (512 < length ∨ (length = content.length ∧ readMessage kind content = none)) →
    exec (.receivedMessageDiscarded kind length content) s = .next { s with overhead.received := [] }

/-! ## Training -/

/-- R44: when its 200 ms repeat falls due, a training message is sent again and its repeat runs afresh; nothing else
changes. -/
def Obligations.TrainingMessagesRepeat : Prop :=
  ∀ s : State, s.powered = true →
    (s.line.state = .handshake → s.line.startRepeat = some 0 →
      exec (.trainingRepeat .trainStart) s = .next { s with
        framer.trainOut := trainingBytes 0x01#8 (flagByte (s.supply.state == .hold)), line.startRepeat := some 20 }) ∧
    (s.line.state = .tables → s.line.rxTableRepeat = some 0 →
      exec (.trainingRepeat .rxTable) s = .next { s with
        framer.trainOut := rxTable s, line.rxTableRepeat := some 20 }) ∧
    (s.line.state = .tables → s.line.readyRepeat = some 0 →
      exec (.trainingRepeat .tablesReady) s = .next { s with
        framer.trainOut := [0x05#8, 0x00#8, 0x00#8] ++ checkBytes [0x05#8, 0x00#8, 0x00#8]
        line.readyRepeat := some 20 })

/-- R44, R45: in HANDSHAKE a TRAIN_REPLY whose kind, length and check are right loads the cycle count; a probe start 4..64
ahead of it is accepted, with the coding credit clamped to 0..24, and any other is ignored apart from the count. R49: an
ENTRY 4..64 ahead, after TABLES_READY has been sent, stops the tables timer and sets the entry count; any other is ignored.
A message whose check does not agree is ignored. -/
def Obligations.ReplyAndEntryAreTaken : Prop :=
  ∀ s : State, s.powered = true →
    let header (kind : Byte) (content : List Byte) : List Byte := [kind] ++ be16 content.length
    let check (kind : Byte) (content : List Byte) : List Byte := checkBytes (header kind content ++ content)
    (∀ credit count probe, s.line.state = .handshake → s.line.probeStart = none → credit < 256 → count < 256 →
      probe < 256 →
      let content := [byteOf credit, byteOf count, byteOf probe]
      exec (.trainReply 0x02#8 (be16 3) content (check 0x02#8 content)) s = .next
        (if 4 ≤ (probe + 256 - count) % 256 ∧ (probe + 256 - count) % 256 ≤ 64 then
          { s with
            time.cycleCount := count
            tones.credit := min credit 24
            line := { s.line with handshakeTimer := none, startRepeat := none, probeStart := some probe } }
        else { s with time.cycleCount := count })) ∧
    (∀ count, s.line.state = .tables → s.line.readySent = true → s.line.entryCount = none → count < 256 →
      s.time.cycleCount < 256 →
      exec (.entry (header 0x06#8 [byteOf count] ++ [byteOf count]) (check 0x06#8 [byteOf count])) s = .next
        (if 4 ≤ (count + 256 - s.time.cycleCount) % 256 ∧ (count + 256 - s.time.cycleCount) % 256 ≤ 64 then
          { s with line := { s.line with
            tablesTimer := none, rxTableRepeat := none, readyRepeat := none, entryCount := some count } }
        else s)) ∧
    (∀ (kind : Byte) (content other : List Byte), other.length = 2 → content.length < 65536 → other ≠ check kind content →
      exec (.trainReply kind (be16 content.length) content other) s = .next s ∧
      exec (.txTable (header kind content) content other) s = .next s ∧
      exec (.entry (header kind content ++ content) other) s = .next s)

/-- R45, R49, R50: the end of the handshake timer in HANDSHAKE and of the tables timer in TABLES fail the attempt: the line
is in WAIT, the attempt count grows, and the back-off is 2, 4, 8, 16 s and then 30 s. -/
def Obligations.AttemptTimersFail : Prop :=
  ∀ (c : Instr) (s : State), s.powered = true →
    ((c = .handshakeTimerExpiry ∧ s.line.state = .handshake ∧ s.line.handshakeTimer = some 0) ∨
      (c = .tablesTimerExpiry ∧ s.line.state = .tables ∧ s.line.tablesTimer = some 0)) →
    Completes c s fun t =>
      let n := if s.line.attempts < 255 then s.line.attempts + 1 else s.line.attempts
      t.line.state = .wait ∧ t.line.attempts = n ∧
      t.line.backoff = (if n = 1 then 2 else if n = 2 then 4 else if n = 3 then 8 else if n = 4 then 16 else 30) ∧
      (n = 3 → t.tester.autoPending = true) ∧
      t = { s with
        line := t.line, loader := t.loader, shifts := t.shifts, framer := t.framer, tester := t.tester
        archive := t.archive, notices := t.notices }

/-- R45, R46, R51: at the boundary whose count is the probe start the line enters PROBE for 200 cycles; at the end of the
back-off it enters HANDSHAKE with its 10 s timer and sends TRAIN_START, and the attempt count stays. -/
def Obligations.ProbeAndHandshakeStart : Prop :=
  (∀ s : State, s.powered = true → s.line.state = .handshake → s.time.symbolNo = 0 →
    s.line.probeStart = some s.time.cycleCount →
    exec .probeStart s = .next { s with
      line := { s.line with state := .probe, probeStart := none, probeTimer := some 200, probeSampled := false }
      framer.lineOut := .probe }) ∧
  (∀ s : State, s.powered = true → s.line.state = .wait → s.line.backoff = 0 →
    Completes .backoffExpiry s fun t =>
      t.line.state = .handshake ∧ t.line.handshakeTimer = some 1000 ∧ t.line.attempts = s.line.attempts ∧
      t.framer.trainOut = trainingBytes 0x01#8 (flagByte (s.supply.state == .hold)) ∧
      t = { s with line := t.line, loader := t.loader, shifts := t.shifts, framer := t.framer })

/-- R46, R47: PROBE ends in TABLES with the 5 s timer and a training pass into bank A, or, without a sample, fails the
attempt. -/
def Obligations.ProbeEnds : Prop :=
  ∀ s : State, s.powered = true → s.line.state = .probe → s.time.symbolNo = 0 → s.line.probeTimer = some 0 →
    s.loader.running = none →
    Completes .probeEnd s fun t =>
      (s.line.probeSampled = true →
        t.line.state = .tables ∧ t.line.tablesTimer = some 500 ∧
        (∃ p, t.loader.running = some p ∧ p.training = true ∧ p.bank = .a ∧ p.m = s.tones.margins.m ∧
          p.s0 = s.tones.meas.map fun m => (m.s : Int)) ∧
        t = { s with line := t.line, loader := t.loader, framer := t.framer }) ∧
      (s.line.probeSampled = false → t.line.state = .wait ∧ t.loader.running = none)

/-- R44, R48: the first TX_TABLE of an attempt is written into bank A of TX when it gives an entry for every tone 6..31, its
bits are allowed on each tone, its gains lie in −10..+10 with a sum of at most 0, and its bit total is at least 24; otherwise
the attempt fails. Entries for other tones are judged for legal bits and gains alone (log entry 54). -/
def Obligations.TxTableIsChecked : Prop :=
  ∀ (first : Nat) (tones : List (Nat × Int)) (s : State), s.powered = true → s.line.state = .tables →
    s.line.txTableTaken = false → first < 256 → tones.length < 256 →
    (∀ x ∈ tones, x.1 < 256 ∧ -128 ≤ x.2 ∧ x.2 ≤ 127) →
    let content := [byteOf first, byteOf tones.length] ++ tonePairs tones
    let header := [0x04#8] ++ be16 content.length
    Completes (.txTable header content (checkBytes (header ++ content))) s fun t =>
      let own := (tones.drop (6 - first)).take 26
      let ok := first ≤ 6 ∧ 32 ≤ first + tones.length ∧ (∀ x ∈ tones, x.1 = 0 ∨ (2 ≤ x.1 ∧ x.1 ≤ 12)) ∧
        bankBitsAllowed s.tones.txSet own = true ∧ (∀ x ∈ tones, -10 ≤ x.2 ∧ x.2 ≤ 10) ∧ (own.map (·.2)).sum ≤ 0 ∧
        24 ≤ (own.map (·.1)).sum
      (ok → t.line.state = .tables ∧ t.line.txTableTaken = true ∧ t.tones = { s.tones with txA := toBank own } ∧
        t = { s with tones := t.tones, line := t.line, framer := t.framer }) ∧
      (¬ ok → t.line.state = .wait ∧ t.tones = s.tones)

/-- R7, R49: at the entry boundary bank A becomes active in both directions, and each budget record is computed from it
with v = 0; the receiver is ALIGNED with nothing collected, and the upstream stream at a frame boundary. -/
def Obligations.ServiceIsEntered : Prop :=
  ∀ (port2First : Bool) (s : State), s.powered = true → s.line.state = .tables → s.time.symbolNo = 0 →
    s.line.entryCount = some s.time.cycleCount → s.slots.s0.laid = false → s.slots.s1.laid = false →
    Completes (.serviceEntry port2First) s fun t =>
      let rx := bitTotal s.tones.rxA
      let tx := bitTotal s.tones.txA
      t.line.state = .service ∧ t.tones.rxActive = .a ∧ t.tones.txActive = .a ∧ t.tones.rxA = s.tones.rxA ∧
      t.framer.rx = ⟨rx, 0, (rx - 8) / 8, 8 + 8 * ((rx - 8) / 8)⟩ ∧
      t.framer.tx = ⟨tx, 0, (tx - 8) / 8, 8 + 8 * ((tx - 8) / 8)⟩ ∧
      t.framer.hunting = false ∧ t.framer.window = [] ∧ t.framer.up = .boundary ∧
      t.impulse.state = .search ∧ t.impulse.reference = none ∧ t.time = s.time

/-! ## Holding the line -/

/-- R52, R54, R55: 50 no-signal cycles, 2 retrain seconds or 10 severe seconds take a line in SERVICE to WAIT with the
cause's reason and a back-off of 1 s; slots, shifts, swaps, schedules and the overhead channel are as R55 leaves them (in
FULL, with no power-loss hold, so that no entry to DORMANT follows). -/
def Obligations.ServiceIsLost : Prop :=
  ∀ (c : Instr) (why : LossReason) (s : State), s.powered = true → s.line.state = .service →
    s.supply.state = .full → s.supply.powerLossHold = none →
    ((c = .noSignalTimeout ∧ why = .noSignal ∧ 50 ≤ s.line.losTimer) ∨
      (c = .retrainSecondsTrigger ∧ why = .lowMargin ∧ 2 ≤ s.line.retrainSeconds) ∨
      (c = .severeSecondsTrigger ∧ why = .severeSeconds ∧ 10 ≤ s.line.severeSeconds)) →
    Completes c s fun t =>
      t.line.state = .wait ∧ t.line.lastLoss = some why ∧ t.line.backoff = 1 ∧ t.line.attempts = s.line.attempts ∧
      t.line.retrainSeconds = 0 ∧ t.line.lowSeconds = 0 ∧ t.line.highSeconds = 0 ∧ t.line.severeSeconds = 0 ∧
      OutOfService t ∧ t.framer.rx.b = s.framer.rx.b ∧ t.framer.tx.b = s.framer.tx.b ∧ t.tones.lineMargin = 0 ∧
      t.time = s.time ∧ t.data = s.data

/-- R57, R60: at a boundary with the shift record IDLE, no hold-off and no RX swap in flight, a pending supply shift starts
first, then a DOWN shift at 10 low seconds, then an UP shift at 60 high seconds, each with a rate-shift pass into the standby
bank whose voice floor is the slots in use. (The other inputs of the pass, R27, are not stated here.) -/
def Obligations.RxShiftStarts : Prop :=
  ∀ (k : ShiftKind) (s : State), s.powered = true → s.line.state = .service → s.time.symbolNo = 0 →
    s.shifts.rx.phase = .idle → s.shifts.rxSwap = none → s.loader.running = none → s.shifts.rx.holdOff = none →
    ((k = .supply ∧ s.shifts.rx.supplyPending = true) ∨
      (k = .down ∧ s.shifts.rx.supplyPending = false ∧ s.line.lowSeconds = 10) ∨
      (k = .up ∧ s.shifts.rx.supplyPending = false ∧ s.line.lowSeconds ≠ 10 ∧ s.line.highSeconds = 60)) →
    Completes .rxShiftStart s fun t =>
      t.shifts.rx.phase = .pass ∧ t.shifts.rx.kind = k ∧ t.shifts.rx.oldB = bitTotal (s.tones.active .rx) ∧
      t.shifts.rx.supplyPending = false ∧
      (∃ p, t.loader.running = some p ∧ p.training = false ∧ p.bank = otherBank s.tones.rxActive ∧
        p.vFloor = s.slots.inUse) ∧
      t = { s with shifts := t.shifts, loader := t.loader, line := t.line }

/-- R28: the record a pass writes for a tone. E is the usable SNR; the bits are the largest b in 2..12 with T[b] ≤ E and
b ≤ cap, 0 when there is none or the tone is not ACTIVE or lies above the ceiling; the gain trims the headroom, by at most
10. R29: so every gain of a bank a pass leaves lies in −10..0, and their sum is 0 or below. -/
def Obligations.ToneIsLoaded : Prop :=
  ∀ (p : Pass) (m tone : Nat) (s0 : Int) (c : ToneSetting),
    let e := s0 + (p.credit : Int) - (m : Int)
    let r := loadTone p m tone s0 c
    let fits (b : Nat) : Prop := 2 ≤ b ∧ b ≤ 12 ∧ (threshold p.thresholds b : Int) ≤ e ∧ b ≤ c.cap
    (c.state = .active → tone ≤ p.ceiling → ∀ b, fits b → fits r.bits ∧ b ≤ r.bits) ∧
    (r.bits ≠ 0 → fits r.bits ∧ c.state = .active ∧ tone ≤ p.ceiling ∧
      r.gain = -(min (e - (threshold p.thresholds r.bits : Int)) 10)) ∧
    (r.bits = 0 → r.gain = 0) ∧
    (∀ (s0s : List Int) (settings : List ToneSetting),
      (∀ x ∈ loadBank p m tone s0s settings, -10 ≤ x.gain ∧ x.gain ≤ 0) ∧ gainSum (loadBank p m tone s0s settings) ≤ 0)

/-- R27, R30, R44, R47, R48: a training pass that meets its voice floor at M hands its bank over: it is written into bank A,
RX_TABLE is sent with it, TABLES_READY is sent behind it when the TX_TABLE has been taken already, and nothing else of the
Tone Store changes. -/
def Obligations.TrainingPassEnds : Prop :=
  ∀ (port2First : Bool) (p : Pass) (s : State), s.powered = true → s.line.state = .tables →
    s.loader = ⟨some p, false⟩ → p.training = true → p.ignored = false → p.bank = .a →
    8 + 16 * p.vFloor ≤ bitTotal (loadBank p p.m 33 p.s0 p.settings) →
    let ready := s.line.txTableTaken && !s.line.readySent
    exec (.loadingPassDone port2First) s = .next { s with
      loader := ⟨none, false⟩
      tones := { s.tones with rxA := loadBank p p.m 33 p.s0 p.settings }
      line := { s.line with
        rxTableSent := true, passHold := p.holdCeiling, rxTableRepeat := some 20
        readySent := s.line.readySent || ready
        readyRepeat := if ready then some 20 else s.line.readyRepeat }
      framer.trainOut := trainingBytes 0x03#8 (flagByte p.holdCeiling ++ [byteOf 33, byteOf 223] ++
        tonePairs ((loadBank p p.m 33 p.s0 p.settings).map fun r => (r.bits, r.gain))) ++
        if ready then [0x05#8, 0x00#8, 0x00#8] ++ checkBytes [0x05#8, 0x00#8, 0x00#8] else [] }

/-- R58: an offered shift that is not a supply shift fails on RATE_DECLINE and at the end of its 2 s wait: IDLE with a
hold-off of 30 s. At the end of the wait an offer that has not begun transmission is taken back and nothing is sent, and for
one that has begun RATE_WITHDRAW is sent (with room in the overhead queue). A RATE_DECLINE leaves the overhead queue as it
is, also an offer still in it, which is the model's choice (log entry 42). -/
def Obligations.OfferFails : Prop :=
  ∀ (reason : Nat) (s : State), s.powered = true → s.line.state = .service → s.shifts.rx.phase = .offered →
    s.shifts.rx.kind ≠ .supply →
    exec (.rateDecline reason) s = .next { s with
      shifts.rx := { s.shifts.rx with phase := .idle, holdOff := some ((s.time.uptime + 30) % 4294967296) } } ∧
    (s.shifts.rx.offerWait = 0 → (∃ q ∈ s.overhead.queue, ∃ h b, q.msg = .rateOffer h b) →
      exec .rateOfferTimeout s = .next { s with
        shifts.rx := { s.shifts.rx with phase := .idle, holdOff := some ((s.time.uptime + 30) % 4294967296) }
        overhead := { s.overhead with
          queue := s.overhead.queue.filter fun q => !isRateOffer q.msg
          waitingLine := s.overhead.waitingLine.filter fun m => !isRateOffer m
          waitingSignal := s.overhead.waitingSignal.filter fun m => !isRateOffer m } }) ∧
    (s.shifts.rx.offerWait = 0 → (∀ q ∈ s.overhead.queue, isRateOffer q.msg = false) → s.overhead.queue.length < 16 →
      s.overhead.waitingLine = [] → s.overhead.waitingSignal = [] →
      exec .rateOfferTimeout s = .next { s with
        shifts.rx := { s.shifts.rx with phase := .idle, holdOff := some ((s.time.uptime + 30) % 4294967296) }
        overhead := { s.overhead with
          queue := s.overhead.queue ++ [⟨s.overhead.nextPlace, .rateWithdraw⟩]
          nextPlace := s.overhead.nextPlace + 1 } })

/-- R58: a RATE_ACCEPT 4..64 ahead agrees the offered shift; RATE_WITHDRAW cancels an agreed TX shift (R62). -/
def Obligations.ShiftIsAgreedOrWithdrawn : Prop :=
  ∀ (count : Nat) (s : State), s.powered = true → s.line.state = .service →
    (s.shifts.rx.phase = .offered → count < 256 → s.time.cycleCount < 256 →
      4 ≤ (count + 256 - s.time.cycleCount) % 256 → (count + 256 - s.time.cycleCount) % 256 ≤ 64 →
      exec (.rateAccept count) s = .next { s with
        shifts.rx := { s.shifts.rx with phase := .agreed, swapCount := count } }) ∧
    exec .rateWithdraw s = .next { s with shifts.tx := none }

/-- R61: a RATE_OFFER is judged by the eight checks in their order. One that passes every check is written into the standby TX
bank and answered RATE_ACCEPT with its swap count; any other is answered RATE_DECLINE with the number of the first check that
fails, ORDER_REJECTED is raised with it, and the banks and the agreed TX shift stay. The parameters of ORDER_REJECTED (the
direction's code, RATE_OFFER's kind 0x11, the check's number) are the model's choice (log entry 16). (With room in the overhead
queue.) -/
def Obligations.RateOfferIsAccepted : Prop :=
  ∀ (dir : Dir) (count : Nat) (hold : Bool) (first : Nat) (tones : List (Nat × Int)) (s : State), s.powered = true →
    s.line.state = .service → count < 256 → s.time.cycleCount < 256 → s.overhead.queue.length < 16 →
    s.overhead.waitingLine = [] → s.overhead.waitingSignal = [] →
    let setting (i : Nat) : ToneSetting := s.tones.txSet.getD i ⟨12, .active⟩
    let ahead := (count + 256 - s.time.cycleCount) % 256
    let checks : List Bool := [
      dir == .tx,
      s.shifts.tx.isNone && s.shifts.txSwap.isNone,
      first == 6 && tones.length == 26,
      tones.zipIdx.all fun x => (x.1.1 == 0 || (2 ≤ x.1.1 && x.1.1 ≤ 12)) && x.1.1 ≤ (setting x.2).cap &&
        ((setting x.2).state == .active || x.1.1 == 0),
      tones.all fun x => -10 ≤ x.2 && x.2 ≤ 10,
      decide ((tones.map (·.2)).sum ≤ 0),
      decide (8 + 16 * s.slots.inUse ≤ (tones.map (·.1)).sum),
      4 ≤ ahead && ahead ≤ 64]
    let answered (m : Msg) (t : State) : State := { t with overhead := { t.overhead with
      queue := t.overhead.queue ++ [⟨t.overhead.nextPlace, m⟩], nextPlace := t.overhead.nextPlace + 1 } }
    let failed := checks.findIdx (· == false)
    exec (.rateOffer dir count hold first tones) s = .next
      (if failed < 8 then
        raise .line .minor .orderRejected [(dir.code : Int), 0x11, (failed : Int) + 1]
          (answered (.rateDecline (failed + 1)) s)
      else answered (.rateAccept count) { s with
        tones := s.tones.setBank .tx (otherBank s.tones.txActive) (toBank tones)
        shifts.tx := some ⟨count, hold, bitTotal (s.tones.active .tx)⟩ })

/-- R59, R62: at its swap count an agreed shift exchanges the banks of its direction and the budget records are computed from
the banks then active; for RX, S follows the change of gains and the run counters it was due by are 0. -/
def Obligations.ShiftsAreApplied : Prop :=
  ∀ s : State, s.powered = true → s.line.state = .service → s.time.symbolNo = 0 →
    (s.shifts.rx.phase = .agreed → s.shifts.rx.swapCount = s.time.cycleCount →
      Completes .rxShiftApplied s fun t =>
        t.tones = { s.tones with
          rxActive := otherBank s.tones.rxActive
          meas := followGains s.tones.meas (gainsOf (s.tones.active .rx)) (gainsOf (s.tones.standby .rx)) } ∧
        t.framer = { s.framer with
          rx := budgetOf (bitTotal (s.tones.standby .rx)) s.slots.laidOut
          tx := budgetOf (bitTotal (s.tones.active .tx)) s.slots.laidOut } ∧
        t.shifts = { s.shifts with rx := { s.shifts.rx with phase := .idle } } ∧
        t.line = { s.line with lowSeconds := 0, highSeconds := 0, rxHold := s.shifts.rx.hold } ∧
        t = { s with
          tones := t.tones, framer := t.framer, shifts := t.shifts, line := t.line, perf := t.perf
          archive := t.archive, notices := t.notices }) ∧
    (∀ x : TxShift, s.shifts.tx = some x → x.swapCount = s.time.cycleCount →
      Completes .txShiftApplied s fun t =>
        t.tones = { s.tones with txActive := otherBank s.tones.txActive } ∧
        t.framer = { s.framer with
          rx := budgetOf (bitTotal (s.tones.active .rx)) s.slots.laidOut
          tx := budgetOf (bitTotal (s.tones.standby .tx)) s.slots.laidOut } ∧
        t.shifts = { s.shifts with tx := none } ∧ t.line = { s.line with txHold := x.hold } ∧
        t = { s with
          tones := t.tones, framer := t.framer, shifts := t.shifts, line := t.line, perf := t.perf
          archive := t.archive, notices := t.notices })

/-- R36, R37: a SWAP_ORDER that passes every check is agreed and answered SWAP_ACK; the part's own order is agreed by
SWAP_ACK and abandoned by SWAP_REJECT with a retry hold of 10 s on its weak tone, as at the end of its 1 s wait; the hold
ends on time. A SWAP_REJECT and the end of a hold leave the overhead channel as it is, also a SWAP_ORDER of the abandoned order
that has not begun transmission, in the queue or among the messages that wait for room, which is the model's choice (log entry
42). -/
def Obligations.SwapsAreAnswered : Prop :=
  ∀ s : State, s.powered = true → s.line.state = .service →
    (∀ count es, swapFault .tx count es s = 0 → count < 256 → s.overhead.queue.length < 16 →
      s.overhead.waitingLine = [] → s.overhead.waitingSignal = [] →
      exec (.swapOrder .tx count es) s = .next { s with
        shifts.txSwap := some ⟨es, count⟩
        overhead := { s.overhead with
          queue := s.overhead.queue ++ [⟨s.overhead.nextPlace, .swapAck⟩], nextPlace := s.overhead.nextPlace + 1 } }) ∧
    (∀ w, s.shifts.rxSwap = some w → w.acked = false →
      exec .swapAck s = .next { s with shifts.rxSwap := some { w with acked := true, wait := none } } ∧
      (∀ reason, w.wait ≠ none →
        exec (.swapReject reason) s = .next { s with
          shifts := { s.shifts with
            rxSwap := none
            held := s.shifts.held.filter (fun h => h.1 != w.weak) ++ [(w.weak, (s.time.uptime + 10) % 4294967296)] } }) ∧
      (w.wait = some 0 →
        exec .swapWaitExpiry s = .next { s with
          shifts := { s.shifts with
            rxSwap := some { w with wait := none }
            held := s.shifts.held.filter (fun h => h.1 != w.weak) ++ [(w.weak, (s.time.uptime + 10) % 4294967296)] } })) ∧
    (∀ tone, (tone, s.time.uptime) ∈ s.shifts.held →
      Completes (.toneHoldExpiry tone) s fun t =>
        (∀ h ∈ t.shifts.held, h.1 ≠ tone) ∧ (∀ h ∈ s.shifts.held, h.1 ≠ tone → h ∈ t.shifts.held) ∧
        t = { s with shifts := t.shifts })

/-- R36, R37, R23: a swap that falls due is written into the active bank of its direction; for RX, S follows the gains; the
other direction's banks stay. -/
def Obligations.SwapsAreApplied : Prop :=
  ∀ s : State, s.powered = true → s.line.state = .service → s.time.symbolNo = 0 →
    (∀ w, s.shifts.rxSwap = some w → w.due = true →
      Completes .rxSwapApplied s fun t =>
        t.tones.active .rx = writeEntries .rx (s.tones.active .rx) w.entries ∧
        t.tones.meas = followGains s.tones.meas (gainsOf (s.tones.active .rx)) (gainsOf (t.tones.active .rx)) ∧
        t.tones.standby .rx = s.tones.standby .rx ∧ t.tones.txA = s.tones.txA ∧ t.tones.txB = s.tones.txB ∧
        t.shifts = { s.shifts with rxSwap := none }) ∧
    (∀ w, s.shifts.txSwap = some w → w.swapCount = s.time.cycleCount →
      Completes .txSwapApplied s fun t =>
        t.tones.active .tx = writeEntries .tx (s.tones.active .tx) w.entries ∧
        t.tones.standby .tx = s.tones.standby .tx ∧ t.tones.rxA = s.tones.rxA ∧ t.tones.rxB = s.tones.rxB ∧
        t.tones.meas = s.tones.meas ∧ t.shifts = { s.shifts with txSwap := none })

/-! ## Impulse noise -/

/-- R72, R73: at the predicted position the window tail starts from the tolerance; at its end a first or second miss is
counted and the prediction moves on by P, and the third loses the lock. -/
def Obligations.PredictionPasses : Prop :=
  ∀ s : State, s.powered = true → s.line.state = .service → s.impulse.state = .locked →
    (s.impulse.prediction = some 0 →
      exec .predictionTimerExpiry s = .next { s with
        impulse := { s.impulse with prediction := none, tail := some (s.impulse.p / 64 + 4) } }) ∧
    (s.impulse.tail = some 0 → s.impulse.missCount < 2 →
      exec .windowTailExpiry s = .next { s with
        impulse := { s.impulse with
          missCount := s.impulse.missCount + 1, tail := none
          prediction := some (s.impulse.p - (s.impulse.p / 64 + 4)) } }) ∧
    (s.impulse.tail = some 0 → s.impulse.missCount = 2 →
      Completes .windowTailExpiry s fun t =>
        t.impulse.state = .search ∧ t.impulse.reference = none ∧ t.impulse.p = 0 ∧ t.impulse.missCount = 0 ∧
        t.impulse.prediction = none ∧ t.impulse.tail = none ∧ t.impulse.due = false ∧
        t.impulse.history = s.impulse.history ∧
        t = { s with
          impulse := t.impulse, overhead := t.overhead, archive := t.archive, notices := t.notices, mgmt := t.mgmt })

/-- R74, R76, R77: a due schedule whose first window start lies 16..32 cycles ahead is offered; a received schedule that
passes the four checks joins the accepted ones; QUIET_CANCEL for either direction ends its windows at the next boundary,
and for RX it holds back any new schedule and clears the due flag (log entry 50). The positions and the names of cycle and
symbol are counted from the symbol about to be received (log entry 10). -/
def Obligations.SchedulesAreExchanged : Prop :=
  ∀ s : State, s.powered = true → s.line.state = .service →
    (∀ start, s.time.symbolNo = 0 → s.impulse.due = true → s.impulse.downOut = none → s.impulse.state = .locked →
      scheduleStart s = some start → 16 ≤ posSub start s.time.symbolCounter / 40 →
      posSub start s.time.symbolCounter / 40 ≤ 32 → s.overhead.queue.length < 16 → s.overhead.waitingLine = [] →
      s.overhead.waitingSignal = [] →
      exec .quietScheduleOffer s = .next { s with
        impulse := { s.impulse with
          due := false
          downOut := some ⟨⟨s.impulse.p, start, s.impulse.width, start⟩, (nameOf s.time start).1,
            (nameOf s.time start).2, false⟩ }
        overhead := { s.overhead with
          queue := s.overhead.queue ++ [⟨s.overhead.nextPlace,
            .quietSchedule s.impulse.p (nameOf s.time start).1 (nameOf s.time start).2 s.impulse.width⟩]
          nextPlace := s.overhead.nextPlace + 1 } }) ∧
    (∀ period cycle symbol width, 1600 ≤ period → period ≤ 16000 → 1 ≤ width → width ≤ 4 → symbol < 40 → cycle < 256 →
      s.time.cycleCount < 256 → 1 ≤ (cycle + 256 - s.time.cycleCount) % 256 →
      (cycle + 256 - s.time.cycleCount) % 256 ≤ 64 →
      let first :=
        (s.time.symbolCounter + (40 * ((cycle + 256 - s.time.cycleCount) % 256) + symbol - s.time.symbolNo)) % 4294967296
      exec (.quietSchedule .tx period cycle symbol width) s = .next { s with
        impulse := { s.impulse with upNext := s.impulse.upNext ++ [⟨period, first, width, first⟩] } }) ∧
    (∀ x, s.impulse.up = some x →
      Completes (.quietCancel .tx) s fun t =>
        t.impulse.upEnding = true ∧ t.impulse.up = some x ∧ t = { s with impulse := t.impulse }) ∧
    Completes (.quietCancel .rx) s fun t =>
      t.impulse.exchangeCancel = true ∧ t.impulse.due = false ∧ t.impulse.downEnding = true ∧
      t.impulse.down = s.impulse.down ∧
      t = { s with impulse := t.impulse, overhead := t.overhead, notices := t.notices, mgmt := t.mgmt }

/-- R3, R4, R5, R8: a received payload is the bits of the tones of the active RX bank in ascending index, and splits into the
overhead byte, the samples of the slots laid out and the data bytes, none of them in a quiet symbol. R67, R68: a symbol in
SERVICE is an impulse symbol when at least a quarter of the loaded tones, rounded up, lie below T[b] − C; any other is good.
R69: an impulse symbol more than 8 symbols after the last opens an event, which heads the history at the symbol's position
and is counted; outside a quiet window it makes its second errored. R116: an ACTIVE slot's samples reach its port's codec; in
an impulse or quiet symbol the codec gets the last pair again, and from the ninth such symbol the idle code. R10: the data
bytes join those collected. R4, R5, R12, R17, R77: an upstream symbol carries the overhead byte, the samples of slots 0 and 1
where they are laid out, the data bytes, then pad, with each tone's gain; a quiet one carries no data byte and counts
QUIET_SYMBOLS. The model's choice: a symbol's position, in events and in quiet windows, is the symbol counter before the
symbol is counted (log entry 10); ratios or bits missing for a tone count as not above its limit and as 0 (log entry 5); with
no loaded tone a quarter of none is 0, so that every symbol is an impulse symbol (log entry 36). (Received symbols are stated
with a fill byte between two overhead messages, upstream ones in the middle of a message and of a data frame with no accepted
schedule waiting to begin.) -/
def Obligations.SymbolsAreSplitAndJudged : Prop :=
  (∀ (bank : List ToneRec) (tones : List (List Bool)), tones.length = bank.length →
    (∀ x ∈ bank.zip tones, x.2.length = x.1.bits) → demapTones bank tones = tones.flatten) ∧
  (∀ (s : State) (quiet : Bool) (first : Byte) (v0 v1 : Byte × Byte) (data : List Byte) (pad : List Bool),
    data.length = (if quiet then 0 else s.framer.rx.d) →
    let bytes := [first] ++ (if s.slots.s0.laid then [v0.1, v0.2] else []) ++
      (if s.slots.s1.laid then [v1.1, v1.2] else []) ++ data
    let x := splitPayload s quiet (bytes.flatMap bitsOf ++ pad)
    x.overhead = first ∧ (s.slots.s0.laid = true → x.voice0 = v0) ∧ (s.slots.s1.laid = true → x.voice1 = v1) ∧
      x.data = data) ∧
  (∀ (ratios : List Int) (tones : List (List Bool)) (s : State), s.powered = true → s.line.state = .service →
    s.time.symbolNo < 40 →
    let bank := s.tones.active .rx
    let loaded := bank.countP fun r => 0 < r.bits
    let above := (bank.zip ratios).countP fun x =>
      0 < x.1.bits && x.2 < (threshold s.tones.thresholds x.1.bits : Int) - s.tones.credit
    let impulse := decide ((loaded + 3) / 4 ≤ above)
    let pos := s.time.symbolCounter
    let quiet := (s.impulse.atSymbol pos).quietDown pos
    let x := splitPayload s quiet (demapTones bank tones)
    s.overhead.received = [] → x.overhead = 0x00#8 →
    Completes (.receiveSymbol ratios tones) s fun t =>
      (impulse = false → t.tones.goodSymbols = s.tones.goodSymbols + 1 ∧ t.impulse.history = s.impulse.history ∧
        t.impulse.lastImpulse = s.impulse.lastImpulse ∧ t.perf.outside = s.perf.outside) ∧
      (impulse = true → (∀ l, s.impulse.lastImpulse = some l → 8 < posSub pos l) →
        (∃ use, t.impulse.history =
          (⟨pos, s.time.cycleCount, s.time.symbolNo, 1, quiet, use⟩ :: s.impulse.history).take 8) ∧
        t.impulse.lastImpulse = some pos ∧ t.tones.goodSymbols = s.tones.goodSymbols ∧
        (s.perf.counters.getD 2 0 < 65535 → 2 < s.perf.counters.length →
          t.perf.counters.getD 2 0 = s.perf.counters.getD 2 0 + 1) ∧
        t.perf.outside =
          (if quiet = false ∧ s.perf.outside < 4000 then s.perf.outside + 1 else s.perf.outside)) ∧
      (∀ k p, (s.slot k).state = .active → (s.slot k).released = false → (s.slot k).laid = true →
        (s.slot k).party = .port p → (s.slot (otherSlot k)).party ≠ .port p →
        let pair := if k = .s0 then x.voice0 else x.voice1
        let run := if (s.slot k).concealed < 255 then (s.slot k).concealed + 1 else (s.slot k).concealed
        if impulse || quiet then
          (t.slot k).concealed = run ∧ (t.slot k).last = (s.slot k).last ∧
          (t.port p).codec = [if 9 ≤ run then (Config.idleCode, Config.idleCode)
            else (s.slot k).last.getD (Config.idleCode, Config.idleCode)]
        else (t.slot k).concealed = 0 ∧ (t.slot k).last = some pair ∧ (t.port p).codec = [pair]) ∧
      (s.framer.hunting = false → 2 ≤ s.framer.window.length →
        let n := 256 * (s.framer.window.getD 0 0#8).toNat + (s.framer.window.getD 1 0#8).toNat
        64 ≤ n → n ≤ 1536 → s.framer.window.length + x.data.length < n + 4 →
        t.framer = { s.framer with window := s.framer.window ++ x.data })) ∧
  (∀ (v1 v2 : Byte × Byte) (s : State) (m : Sending) (b : Byte) (left : List Byte) (priority : Bool)
    (data more : List Byte), s.powered = true → s.line.state = .service → s.time.symbolNo < 40 →
    s.impulse.upNext = [] → s.overhead.sending = some m → m.left = b :: left →
    s.framer.up = .frame priority (data ++ more) → more ≠ [] → data.length = s.framer.tx.d →
    let voice (r : SlotRec) : List Byte :=
      if r.laid = false then []
      else if r.state = .active ∧ r.released = false ∧ r.party = .port .p1 then [v1.1, v1.2]
      else if r.state = .active ∧ r.released = false ∧ r.party = .port .p2 then [v2.1, v2.2]
      else [Config.idleCode, Config.idleCode]
    let bank := s.tones.active .tx
    let sent (payload : List Byte) (up : UpStream) : State :=
      { s with
        overhead.sending := some { m with left := left, cycle := s.time.cycleCount }
        framer := { s.framer with
          up := up
          lineOut := .payload (mapTones 6 bank
            (payload.flatMap bitsOf ++ List.replicate (s.framer.tx.b - 8 * payload.length) false))
          lineGains := (List.range bank.length).map fun i => (6 + i, (bank.getD i ⟨0, 0⟩).gain) } }
    ((∀ w, s.impulse.up = some w → w.width ≤ posSub s.time.symbolCounter w.next) →
      exec (.transmitSymbol v1 v2) s =
        .next (sent ([b] ++ voice s.slots.s0 ++ voice s.slots.s1 ++ data) (.frame priority more))) ∧
    (∀ w, s.impulse.up = some w → posSub s.time.symbolCounter w.next < w.width →
      exec (.transmitSymbol v1 v2) s =
        .next (count .quietSymbols (sent ([b] ++ voice s.slots.s0 ++ voice s.slots.s1) s.framer.up))))

/-! ## Handset ports -/

/-- R81, R82: the debounce timer runs while the input differs from the loop state; at its end the loop state changes: an
open loop closes, a closed one begins a break judged by the limits then in force, a break ends closed. The end is stated for
any value of the timer, and the operand elapsed for any number of milliseconds: the command brings the local timebase to its
end (log entry 3). -/
def Obligations.LoopIsDebounced : Prop :=
  ∀ (p : Port) (s : State), s.powered = true →
    (∀ closed elapsed, Completes (.loopSenseChange p closed elapsed) s fun t =>
      (t.port p).closed = closed ∧ ((t.port p).debounce = none ↔ closed = ((s.port p).loop == .offHook))) ∧
    ((s.port p).loop = .onHook → (s.port p).closed = true →
      Completes (.debounceExpiry p) s fun t => (t.port p).loop = .offHook) ∧
    ((s.port p).loop = .offHook → (s.port p).closed = false →
      Completes (.debounceExpiry p) s fun t =>
        (t.port p).loop = .brk ∧ (t.port p).brk = some 0 ∧ (t.port p).breakPulse = (s.port p).timing.pulse ∧
        (t.port p).breakFlash = (s.port p).timing.flash ∧ (t.port p).make = none) ∧
    ((s.port p).loop = .brk → (s.port p).closed = true →
      Completes (.debounceExpiry p) s fun t => (t.port p).loop = .offHook ∧ (t.port p).brk = none)

/-- R82, R83, R87, R88, R90: past the pulse limit, and at the make limit, the digit in progress is complete: no pulse is left to
count; past the flash limit a break is an on-hook, and a port in SEIZING, CONNECTED or with a tone is IDLE; each stated for any
value of the timer that ends (log entry 3). With no power-loss hold running, no loop timer touches the blocks named in the
last clause. -/
def Obligations.DigitsAndBreaksEnd : Prop :=
  ∀ (p : Port) (s : State), s.powered = true →
    ((s.port p).loop = .brk → 0 < (s.port p).pulses →
      Completes (.breakPulseLimitPassed p) s fun t => (t.port p).pulses = 0 ∧ (t.port p).loop = .brk) ∧
    ((s.port p).make.isSome = true →
      Completes (.makeTimerExpiry p) s fun t => (t.port p).pulses = 0 ∧ (t.port p).make = none) ∧
    ((s.port p).loop = .brk →
      ((s.port p).state = .seizing ∨ (s.port p).state = .connected ∨ (s.port p).state = .refused ∨
        (s.port p).state = .noService ∨ (s.port p).state = .silent) →
      Completes (.breakTimerExpiry p) s fun t =>
        (t.port p).loop = .onHook ∧ (t.port p).brk = none ∧ (t.port p).state = .idle) ∧
    (s.supply.powerLossHold = none → ∀ t : State,
      (exec (.breakPulseLimitPassed p) s = .next t ∨ exec (.makeTimerExpiry p) s = .next t ∨
        exec (.breakTimerExpiry p) s = .next t ∨ exec (.debounceExpiry p) s = .next t) →
      t.tones = s.tones ∧ t.loader = s.loader ∧ t.line = s.line ∧ t.shifts = s.shifts ∧ t.impulse = s.impulse ∧
      t.framer = s.framer ∧ t.data = s.data ∧ t.tester = s.tester ∧
      t.time = { s.time with halfMs := t.time.halfMs })

/-- R83, R84: the shared operation that completes a digit: n pulses are the digit n, ten the digit 0, and more an error; the
digit is sent from a CONNECTED port and buffered in SEIZING while the buffer holds fewer than 16. (A full buffer is not stated
here; the timers that call the operation are in DigitsAndBreaksEnd.) -/
def Obligations.PulsesMakeDigits : Prop :=
  ∀ (p : Port) (s : State),
    let r := s.port p
    (1 ≤ r.pulses → r.pulses ≤ 10 → r.state = .seizing → r.digits.length < 16 →
      completeDigit p s = s.setPort p { r with
        pulses := 0, make := none, lastDigit := some (r.pulses % 10), digits := r.digits ++ [.digit (r.pulses % 10)] }) ∧
    (1 ≤ r.pulses → r.pulses ≤ 10 → r.state = .connected →
      completeDigit p s = offer (.digit p (r.pulses % 10))
        (s.setPort p { r with pulses := 0, make := none, lastDigit := some (r.pulses % 10) })) ∧
    (10 < r.pulses →
      completeDigit p s = s.setPort p { r with
        pulses := 0, make := none, dialErrors := if r.dialErrors < 255 then r.dialErrors + 1 else r.dialErrors })

/-- R90, R94, R98: a tone ends in SILENT; an on-phase ends with its unit returned and the off interval, in units of 5 cycles,
running; a ring limit ends its order with NO_ANSWER, its port IDLE and its slot released. A released slot's seizure wait
stops at once, which is the model's choice (log entry 57). -/
def Obligations.TonesAndRingsEnd : Prop :=
  ∀ s : State, s.powered = true →
    (∀ p : Port, ((s.port p).state = .refused ∨ (s.port p).state = .noService) → (s.port p).toneTimer = some 0 →
      exec (.toneTimerExpiry p) s = .next (s.setPort p { (s.port p).settled with state := .silent })) ∧
    (∀ c : Cadence, s.handset.p1.state = .ringing → s.handset.p1.cadence = some c → c.on = true → c.timer = some 0 →
      s.handset.p2.state ≠ .ringing →
      exec .cadencePhaseEnd s = .next { s with
        handset.p1 := { s.handset.p1 with
          cadence := some { c with on := false, timer := some (5 * (c.pairs.getD c.pair (1, 1)).2) }
          unitHeld := false } }) ∧
    (∀ order : Nat, s.line.state = .service → s.handset.p1.state = .ringing → s.handset.p1.order = some order →
      s.handset.p1.ringTimer = some 0 → s.handset.p1.slot = some .s0 → s.slots.s0.state = .reserved →
      s.slots.s0.released = false → s.slots.s0.use = some .ring → s.slots.s0.order = some order →
      s.handset.p2.state ≠ .ringing → s.overhead.queue.length < 16 → s.overhead.waitingLine = [] →
      s.overhead.waitingSignal = [] →
      exec (.ringTimerExpiry order) s = .next { s with
        handset.p1 := { s.handset.p1.settled with state := .idle, skipped := false }
        slots.s0 := { s.slots.s0 with released := true, wait := none }
        overhead := { s.overhead with
          queue := s.overhead.queue ++ [⟨s.overhead.nextPlace, .noAnswer order⟩]
          nextPlace := s.overhead.nextPlace + 1 } })

/-! ## Voice slots -/

/-- R109, R110, R113: SEIZE_ACK makes the seized slot ACTIVE and its port CONNECTED; SEIZE_NAK releases it and the port is
REFUSED for EXCHANGE; the end of the wait releases it and refuses the port for TIMEOUT; while stale answers are due, either
answer is only counted off. (What the end of the wait sends or removes in the overhead queue, and the stale count it leaves,
are not stated here.) A released slot's seizure wait stops at once, which is the model's choice (log entry 57). -/
def Obligations.SeizureIsAnswered : Prop :=
  ∀ (k : Slot) (p : Port) (s : State), s.powered = true → s.line.state = .service → (s.slot k).state = .reserved →
    (s.slot k).use = some .outgoing → (s.slot k).party = .port p → (s.slot k).released = false →
    (s.slot k).wait.isSome = true →
    ((s.slot k).stale = 0 → (s.port p).digits = [] →
      exec (.seizeAck k) s = .next ((s.setSlot k { s.slot k with
          state := .active, wait := none, last := some (Config.idleCode, Config.idleCode), concealed := 0 }).setPort p
        { s.port p with state := .connected })) ∧
    ((s.slot k).stale = 0 →
      exec (.seizeNak k) s = .next ((s.setSlot k { s.slot k with released := true, wait := none }).setPort p
        { (s.port p).settled with state := .refused, refusal := some .exchange, toneTimer := some 6000 })) ∧
    (0 < (s.slot k).stale →
      exec (.seizeAck k) s = .next (s.setSlot k { s.slot k with stale := (s.slot k).stale - 1 }) ∧
      exec (.seizeNak k) s = .next (s.setSlot k { s.slot k with stale := (s.slot k).stale - 1 })) ∧
    ((s.slot k).wait = some 0 →
      Completes (.seizureWaitExpiry k) s fun t =>
        (t.slot k).released = true ∧ (t.port p).state = .refused ∧ (t.port p).refusal = some .timeout ∧
        t.slot (otherSlot k) = s.slot (otherSlot k) ∧ t.port (otherPort p) = s.port (otherPort p))

/-- R105, R111 to R113: a received RELEASE releases the slot of an outgoing or answered call and refuses its port for
CLEARED, during a seizure too, with the stale answers left as they are (log entry 33); an admissible RING for an IDLE port 1
alone reserves the lowest FREE slot and rings the port with the order's cadence and limit; RING_STOP ends port 1's order with
the port IDLE and the slot released. (Orders for port 2 or both ports and refused orders are not stated here.) A released
slot's seizure wait stops at once, which is the model's choice (log entry 57). -/
def Obligations.CallsAreReleasedAndRung : Prop :=
  ∀ s : State, s.powered = true → s.line.state = .service →
    (∀ k p reason, (s.slot k).state ≠ .free → (s.slot k).released = false → (s.slot k).party = .port p →
      ((s.slot k).use = some .outgoing ∨ (s.slot k).state = .active) →
      exec (.release k reason) s = .next ((s.setSlot k { s.slot k with released := true, wait := none }).setPort p
        { (s.port p).settled with state := .refused, refusal := some .cleared, toneTimer := some 6000 })) ∧
    (∀ cadence order, cadence ≤ 7 → orderSlot s order = none → s.handset.p1.state = .idle →
      s.shifts.rx.phase ≠ .pass → admissible s = true →
      Completes (.ring .one cadence order) s fun t =>
        (t.slot (lowestFree s)).state = .reserved ∧ (t.slot (lowestFree s)).use = some .ring ∧
        (t.slot (lowestFree s)).order = some order ∧ (t.slot (lowestFree s)).wait = none ∧
        t.slots.admissions = (s.slots.admissions + 1) % 65536 ∧ t.slots.newest = some (lowestFree s) ∧
        t.handset.p1.state = .ringing ∧ t.handset.p1.order = some order ∧
        t.handset.p1.ringTimer = some (100 * s.handset.p1.timing.ring) ∧
        t.handset.p1.cadence = some ⟨s.handset.cadences.getD cadence [], 0, true, none⟩ ∧
        t.handset.p2 = s.handset.p2 ∧ t.overhead = s.overhead) ∧
    (∀ order, s.slots.s0.state = .reserved → s.slots.s0.released = false → s.slots.s0.use = some .ring →
      s.slots.s0.order = some order → s.handset.p1.state = .ringing → s.handset.p1.slot = some .s0 →
      s.handset.p2.state ≠ .ringing →
      exec (.ringStop order) s = .next { s with
        handset.p1 := { s.handset.p1.settled with state := .idle, skipped := false }
        slots.s0 := { s.slots.s0 with released := true, wait := none } })

/-! ## Passes and swap orders -/

/-- R30: M_pass goes from M down by 4, not below R, to the first pass that meets the floor of 8 + 16·v_floor, or to R. R27,
R57: a rate-shift pass that meets its floor at M is written into the standby bank and offered, unless an UP shift gains no
bit, which ends it; R30: one that meets it below M raises MARGIN_LOWERED first. R31, R54: one short at R with v_floor 0 ends
SERVICE with LINE_TOO_WEAK. R31, R115: one short at R with one call up sheds its slot: RELEASE with CAPACITY, the port
REFUSED for SHED, CALLS_LOST counted, and the pass made again without it. R37: a SWAP_ORDER is refused for the first of the
nine checks that fails, with SWAP_REJECT and ORDER_REJECTED carrying its number, and taken when none fails. The parameters of
ORDER_REJECTED (the direction's code, SWAP_ORDER's kind 0x15, the check's number) are the model's choice (log entry 16), and
so is the end of the shed slot's seizure wait at its release (log entry 57). (Offers and refusals with room in the overhead
queue.) -/
def Obligations.PassAndSwapAreJudged : Prop :=
  (∀ (p : Pass) (v : Nat), p.r ≤ p.m → p.m ≤ 63 →
    let bank (m : Nat) : List ToneRec := loadBank p m 33 p.s0 p.settings
    let x := lowerPasses p v 20 p.m
    x.2.1 = bank x.2.2 ∧ (x.1 = true ↔ 8 + 16 * v ≤ bitTotal x.2.1) ∧ (x.1 = false → x.2.2 = p.r) ∧
      ∃ k, x.2.2 = max (p.m - 4 * k) p.r ∧ ∀ j, j < k → bitTotal (bank (max (p.m - 4 * j) p.r)) < 8 + 16 * v) ∧
  (∀ (port2First : Bool) (p : Pass) (s : State), s.powered = true → s.line.state = .service →
    s.loader = ⟨some p, false⟩ → p.training = false → p.ignored = false → p.bank = otherBank s.tones.rxActive →
    s.shifts.rx.phase = .pass → s.handset.p1.heldRequest = false → s.handset.p2.heldRequest = false →
    let bank (m : Nat) : List ToneRec := loadBank p m 33 p.s0 p.settings
    let x := lowerPasses p p.vFloor 20 p.m
    let written (m : Nat) : State :=
      { s with loader := ⟨none, false⟩, tones := s.tones.setBank .rx p.bank (bank m) }
    let offered (m : Nat) (t : State) : State := { t with
      shifts.rx := { t.shifts.rx with phase := .offered, hold := p.holdCeiling, offerWait := 200 }
      overhead := { t.overhead with
        queue := t.overhead.queue ++
          [⟨t.overhead.nextPlace, .rateOffer p.holdCeiling ((bank m).map fun r => (r.bits, r.gain))⟩]
        nextPlace := t.overhead.nextPlace + 1 } }
    let gainsNothing (m : Nat) : Prop := s.shifts.rx.kind = .up ∧ bitTotal (bank m) ≤ s.shifts.rx.oldB
    let room := s.overhead.queue.length < 16 ∧ s.overhead.waitingLine = [] ∧ s.overhead.waitingSignal = []
    (8 + 16 * p.vFloor ≤ bitTotal (bank p.m) → room → ¬ gainsNothing p.m →
      exec (.loadingPassDone port2First) s = .next (offered p.m (written p.m))) ∧
    (8 + 16 * p.vFloor ≤ bitTotal (bank p.m) → gainsNothing p.m →
      exec (.loadingPassDone port2First) s = .next { written p.m with shifts.rx.phase := .idle }) ∧
    (x.1 = true → x.2.2 < p.m →
      let t := raise .line .minor .marginLowered [(x.2.2 : Int)] (written x.2.2)
      (room → ¬ gainsNothing x.2.2 → exec (.loadingPassDone port2First) s = .next (offered x.2.2 t)) ∧
      (gainsNothing x.2.2 → exec (.loadingPassDone port2First) s = .next { t with shifts.rx.phase := .idle })) ∧
    (x.1 = false → p.vFloor = 0 → s.supply.state = .full → s.supply.powerLossHold = none →
      Completes (.loadingPassDone port2First) s fun t =>
        t.line.state = .wait ∧ t.line.lastLoss = some .lineTooWeak ∧ t.line.backoff = 1 ∧ t.loader.running = none ∧
        t.tones.bank .rx p.bank = bank x.2.2 ∧ OutOfService t) ∧
    (∀ q : Port, x.1 = false → p.vFloor = 1 → 8 ≤ bitTotal (bank p.m) → s.shifts.rx.kind ≠ .up →
      s.slots.s0.state = .active → s.slots.s0.released = false → s.slots.s0.party = .port q →
      s.slots.newest = some .s0 → s.slots.s1.state = .free → s.overhead.queue.length < 15 →
      s.overhead.waitingLine = [] → s.overhead.waitingSignal = [] → 9 < s.perf.counters.length →
      s.perf.counters.getD 9 0 < 65535 →
      Completes (.loadingPassDone port2First) s fun t =>
        t.slots.s0 = { s.slots.s0 with released := true, wait := none } ∧ (t.port q).state = .refused ∧
        (t.port q).refusal = some .shed ∧ t.perf.counters.getD 9 0 = s.perf.counters.getD 9 0 + 1 ∧
        t.shifts.rx.phase = .offered ∧ t.tones.bank .rx p.bank = bank p.m ∧
        t.overhead.queue = s.overhead.queue ++ [⟨s.overhead.nextPlace, .release .s0 .capacity⟩,
          ⟨s.overhead.nextPlace + 1, .rateOffer p.holdCeiling ((bank p.m).map fun r => (r.bits, r.gain))⟩])) ∧
  (∀ (dir : Dir) (count : Nat) (es : List SwapEntry) (s : State), s.powered = true → s.line.state = .service →
    count < 256 → s.time.cycleCount < 256 → s.overhead.queue.length < 16 → s.overhead.waitingLine = [] →
    s.overhead.waitingSignal = [] →
    let bank := s.tones.active .tx
    let after := writeEntries .tx bank es
    let setting (tone : Nat) : ToneSetting := s.tones.txSet.getD (tone - 6) ⟨12, .active⟩
    let ahead := (count + 256 - s.time.cycleCount) % 256
    let checks : List Bool := [
      dir == .tx,
      s.shifts.txSwap.isNone && s.shifts.tx.isNone,
      decide ((es.map (·.tone)).Nodup),
      es.all fun e => 6 ≤ e.tone && e.tone ≤ 31,
      es.all fun e => (e.bits == 0 || (2 ≤ e.bits && e.bits ≤ 12)) && e.bits ≤ (setting e.tone).cap &&
        ((setting e.tone).state == .active || e.bits == 0),
      es.all fun e => -10 ≤ e.gain && e.gain ≤ 10,
      bitTotal after == bitTotal bank,
      gainSum after ≤ 0,
      4 ≤ ahead && ahead ≤ 64]
    let answered (m : Msg) (t : State) : State := { t with overhead := { t.overhead with
      queue := t.overhead.queue ++ [⟨t.overhead.nextPlace, m⟩], nextPlace := t.overhead.nextPlace + 1 } }
    let first := checks.findIdx (· == false)
    exec (.swapOrder dir count es) s = .next
      (if first < 9 then
        raise .line .minor .orderRejected [(dir.code : Int), 0x15, (first : Int) + 1]
          (answered (.swapReject (first + 1)) s)
      else answered .swapAck { s with shifts.txSwap := some ⟨es, count⟩ }))

/-! ## Home link -/

/-- R120, R126, R129: the link comes UP and goes DOWN; the frame at the head of the home delivery buffer leaves it when it
has been sent, and the next is begun; the repeat of a pause frame is due while flow pause is asserted and the link is UP;
room of the buffer goes to the waiting response, and nothing outside the buffer's owners moves. R129, R141, R146: when the link
goes DOWN, a notice behind downstream data frames comes back to the notice queue with the home channel its only pending channel,
and no other notice of the queue has its sequence number, also where a THRESHOLD is raised by a data frame that is dropped before
it; that the frames leave the buffer oldest first is the model's choice (log entry 67). (The notice has left the queue, the home
enable is on and the queue has room. The placing of the next notice, and what else becomes of the frames in the buffer when the
link goes DOWN, are not stated here.) -/
def Obligations.HomeLinkMoves : Prop :=
  ∀ s : State, s.powered = true →
    (s.data.linkUp = false → Completes .homeLinkUp s fun t =>
      t.data.linkUp = true ∧ t.data.priority = s.data.priority ∧ t.data.bulk = s.data.bulk ∧
      t = { s with data := t.data, notices := t.notices }) ∧
    (s.data.linkUp = true → Completes .homeLinkDown s fun t =>
      t.data.linkUp = false ∧ t.data.buffer = [] ∧ t.data.tx = .idle ∧ t.mgmt.home.requests = s.mgmt.home.requests ∧
      t.data.priority = s.data.priority ∧ t.data.bulk = s.data.bulk) ∧
    (∀ before x bytes, s.data.linkUp = true → s.data.buffer = before ++ [⟨.notice x, bytes⟩] →
      (∀ f ∈ before, f.item = .data) → s.notices.homeEnable = true → s.notices.nextSequence < 65536 →
      s.overhead.queue.length ≤ 16 → s.notices.queue.length + before.length < 24 →
      (∀ e ∈ s.notices.queue, e.notice.sequence ≠ x.sequence) →
      Completes .homeLinkDown s fun t => ∃ e ∈ t.notices.queue,
        e.notice = x ∧ e.home = true ∧ e.homeReturn.isSome = true ∧ e.overhead = false ∧
        (∀ q ∈ t.notices.queue, q.notice.sequence = x.sequence → q = e) ∧
        ∀ q ∈ s.notices.queue, q ∈ t.notices.queue) ∧
    (∀ f rest, s.data.linkUp = true → s.data.tx = .frame → s.data.buffer = f :: rest → f.item = .data →
      s.data.pauseDue = none →
      exec .homeFrameSent s = .next { s with
        data := { s.data with buffer := rest, tx := if rest = [] then .idle else .frame } }) ∧
    (s.data.pauseTimer = some 0 → s.data.flowPause = true → s.data.linkUp = true → s.data.tx = .frame →
      exec .pauseRepeatExpiry s = .next { s with
        data := { s.data with pauseTimer := some 10, pauseDue := some .longest } }) ∧
    (∀ first, s.data.linkUp = true → Completes (.homeBufferRoom first) s fun t =>
      s.data.buffer <+: t.data.buffer ∧ (bufferFill s.data.buffer ≤ 6144 → bufferFill t.data.buffer ≤ 6144) ∧
      t = { s with data := t.data, notices := t.notices, mgmt := t.mgmt } ∧
      (∀ e rest, s.mgmt.home.responses = e :: rest → first = false →
        bufferFill s.data.buffer + (responseFrame s e.response).bytes.length ≤ 6144 →
        responseFrame s e.response ∈ t.data.buffer))

/-! ## Archive and tests -/

/-- R157, R158: in WRAP, a program that reads back agreeing, short of its block's last ordinary slot, leaves its record in its
slot, and one that does not leaves a damaged slot, PROGRAM_FAILED and ERROR; R160, R162: a rotation erase that finds every
byte blank writes the header with the block sequence and one more erase, and any erase that does not makes the block BAD, with
ERASE_FAILED and ERROR, and leaves the flash as the erase had left it (log entry 8). The other blocks of the flash stay. Each
is stated for any time left (log entry 3), with no power-loss hold running and no erase suspended. -/
def Obligations.FlashOperationsEnd : Prop :=
  ∀ s : State, s.powered = true → s.supply.powerLossHold = none → s.archive.flash.length = 4 →
    s.archive.table.length = 4 → s.archive.mode = .wrap →
    (∀ p, s.archive.program = some p → s.archive.erase = none → s.archive.state = .programming → p.block < 4 →
      (s.archive.entry p.block).nextOrdinary < 126 → s.archive.current = some p.block →
      Completes (.programDone true) s fun t =>
        (t.archive.block p.block).read p.slot = some (.record p.record) ∧
        ∀ i, i ≠ p.block → t.archive.block i = s.archive.block i) ∧
    (∀ p, s.archive.program = some p → s.archive.erase = none → s.archive.state = .programming → p.block < 4 →
      Completes (.programDone false) s fun t =>
        (t.archive.block p.block).read p.slot = some .damaged ∧ t.archive.programFailed = true ∧
        t.archive.state = .error ∧ t.archive.program = none ∧
        ∀ i, i ≠ p.block → t.archive.block i = s.archive.block i) ∧
    (∀ e, s.archive.erase = some e → s.archive.program = none → s.archive.state = .erasing → e.origin = .internal →
      e.block < 4 → s.archive.current = none →
      Completes (.eraseComplete true) s fun t =>
        (t.archive.block e.block).header =
          some ⟨s.archive.blockSequence, satInc 65535 (s.archive.entry e.block).eraseCount⟩ ∧
        t.archive.erase = none ∧ t.archive.pointer = e.block ∧ (t.archive.entry e.block).state = .current ∧
        ∀ i, i ≠ e.block → t.archive.block i = s.archive.block i) ∧
    (∀ e, s.archive.erase = some e → s.archive.program = none → s.archive.state = .erasing → e.block < 4 →
      Completes (.eraseComplete false) s fun t =>
        t.archive.flash = s.archive.flash ∧ (t.archive.entry e.block).state = .bad ∧ t.archive.eraseFailed = true ∧
        t.archive.state = .error ∧ t.archive.erase = none) ∧
    (∀ (ok : Bool) (t : State), exec (.programDone ok) s = .next t ∨ exec (.eraseComplete ok) s = .next t →
      t.line = s.line ∧ t.tones = s.tones ∧ t.slots = s.slots ∧ t.data = s.data ∧ t.overhead = s.overhead ∧
      t.mgmt = s.mgmt ∧ t.perf = s.perf)

/-- R174, R176: at the end of its time a test's result replaces its type's entry, TEST_RESULT is raised with the severity of its
verdict, and the claim is freed; a tested port with its loop open is IDLE, and the line of a line test is given back to the state
it was taken from: OFF while it is disabled, else HANDSHAKE with the attempt count 0; WAIT with the back-off it held; HANDSHAKE
with the attempt count as it stands; from SERVICE HANDSHAKE with the attempt count 0. R177: with a request pending, the automatic
sequence takes the line of a part in WAIT and FULL into TEST for LINE_VOLTAGE, and a verdict other than FAIL hands the claim on to
LINE_INSULATION, the line staying as it is. The first parameter of TEST_RESULT is a free value (log entry 15), and its verdict is
numbered as the model numbers it (log entry 16). -/
def Obligations.TestsRun : Prop :=
  ∀ s : State, s.powered = true →
    (∀ m c p, s.tester.claim = some c → c.timer = 0 → c.port = some p → c.lineBefore = none → c.automatic = false →
      (s.port p).loop = .onHook → c.test.index < s.tester.results.length →
      Completes (.testComplete m) s fun t =>
        let v := testValue c.test m
        t.tester.claim = none ∧ (t.port p).state = .idle ∧
        t.tester.results = s.tester.results.set c.test.index
          ⟨verdictOf c.test (limitsOf s c.test) v, v, some p, some c.origin, s.time.uptime⟩ ∧
        t = { s with tester := t.tester, handset := t.handset, archive := t.archive, notices := t.notices }) ∧
    (∀ m c, s.tester.claim = some c → c.timer = 0 → c.port = none → c.test.index < s.tester.results.length →
      let v := testValue c.test m
      let verdict := verdictOf c.test (limitsOf s c.test) v
      let severity : Severity := match verdict, c.test with
        | .fail, .lineVoltage => .critical
        | .fail, _ => .major
        | .warn, _ => .minor
        | _, _ => .info
      let told := raise .test severity .testResult [Config.testTarget c.test.index 0, v, (verdict.code : Int)] s
      let results := s.tester.results.set c.test.index ⟨verdict, v, none, some c.origin, s.time.uptime⟩
      (c.automatic = true → c.test = .lineVoltage → verdict ≠ .fail →
        exec (.testComplete m) s = .next { told with tester := { s.tester with
          results := results, claim := some { c with test := .lineInsulation, timer := 300 } } }) ∧
      (c.automatic = false ∨ c.test ≠ .lineVoltage ∨ verdict = .fail →
        let given : State := { told with tester := { s.tester with results := results, claim := none } }
        (c.lineBefore = some .off → s.line.enabled = false →
          exec (.testComplete m) s = .next { given with line.state := .off }) ∧
        (c.lineBefore = some .wait → exec (.testComplete m) s = .next { given with line.state := .wait }) ∧
        ((c.lineBefore = some .off ∧ s.line.enabled = true) ∨ c.lineBefore = some .handshake ∨
            c.lineBefore = some .service →
          Completes (.testComplete m) s fun t =>
            t.line.state = .handshake ∧ t.line.handshakeTimer = some 1000 ∧
            t.line.attempts = (if c.lineBefore = some .handshake then s.line.attempts else 0) ∧
            t.framer.trainOut = trainingBytes 0x01#8 (flagByte (s.supply.state == .hold)) ∧
            t.tester = { s.tester with
              results := results, claim := none
              autoPending := if c.lineBefore = some .off then false else s.tester.autoPending } ∧
            t = { given with line := t.line, loader := t.loader, shifts := t.shifts, framer := t.framer, tester := t.tester }))) ∧
    (s.tester.autoPending = true → s.line.state = .wait → s.supply.state = .full → s.tester.claim = none →
      exec .autoTestStart s = .next { s with
        tester := { s.tester with
          autoPending := false, claim := some ⟨.lineVoltage, none, .internal, false, some .wait, 100, true⟩ }
        line.state := .test })

/-! ## Supply -/

/-- R180 to R185: the sense input is followed by its timers; a qualified loss in FULL on a GOOD battery enters HOLD with a ring
allowance of 1, and a qualified return in HOLD enters FULL with 2; a battery that becomes GOOD clears its reports. A qualified
loss in FULL on a LOW battery raises MAINS_LOST and BATTERY_LOW and enters HOLD, or DORMANT when the dormancy condition holds
there. A battery that becomes LOW without the mains in HOLD or DORMANT raises BATTERY_LOW once for the stretch, and in HOLD enters
DORMANT when the condition holds; LOW with the mains changes nothing else, and LOW without the mains in FULL neither, which is the
model's choice (log entry 73). An EXHAUSTED battery, or none, with the mains changes nothing else; without the mains, and at a
qualified loss, it runs the power-loss sequence once: in SERVICE POWER_LOSS at the head of its class, so that the arbiter takes it
next, then the notice POWER_LOSS with the reason, power-loss done set, a settle period abandoned, and, but in DORMANT, the hold of
150 ms begun. The qualified rows are stated for any value of their timers, and the operand elapsed for any number of milliseconds
(log entry 3), with no power-loss hold running. (With room in the overhead queue. The battery state's number in MAINS_LOST is the
model's choice, log entry 16. What ends the hold is in DormantIsEnteredAndLeft.) -/
def Obligations.MainsMovesSupply : Prop :=
  ∀ s : State, s.powered = true → s.supply.powerLossHold = none →
    let ringing := s.handset.p1.state = .ringing ∨ s.handset.p2.state = .ringing
    let inService := s.line.state == .service
    let room := s.overhead.queue.length < 16 ∧ s.overhead.waitingLine = [] ∧ s.overhead.waitingSignal = []
    let reason (b : Battery) : Nat := if b = .exhausted then 1 else 2
    let spent (b : Battery) (supply : Supply) : Supply := { supply with
      battery := b, powerLossDone := true, settle := none, powerLossWaiting := inService
      powerLossHold := if s.supply.state = .dormant then none else some 300 }
    let lost (b : Battery) : State := raise .supply .critical .powerLoss [(reason b : Int)] s
    let headed (b : Battery) (o : Overhead) : Prop :=
      if s.line.state = .service then
        ∃ q : QueuedMsg, q.msg = .powerLoss (reason b) ∧ o = { s.overhead with queue := q :: s.overhead.queue } ∧
          arbiterChoice o.queue = some q
      else o = s.overhead
    let dormant (t : State) : Prop :=
      t.supply.state = .dormant ∧ t.supply.wakeWindow = none ∧ t.supply.lowReported = true ∧ t.line.state = .off ∧
      (s.line.state = .service → t.line.lastLoss = some .dormant ∧ OutOfService t) ∧ t.handset.allowance = 0 ∧
      t.data.priority = [] ∧ t.data.bulk = [] ∧ t.archive.erase = none
    (s.supply.mainsPresent = true → ∀ elapsed, Completes (.mainsSenseChange false elapsed) s fun t =>
      t.supply.mainsSense = false ∧ t.supply.lossTimer.isSome = true ∧ t.supply.mainsPresent = true ∧
        t.supply.returnTimer = none) ∧
    (s.supply.mainsPresent = true → ∀ elapsed, Completes (.mainsSenseChange true elapsed) s fun t =>
      t.supply.mainsSense = true ∧ t.supply.lossTimer = none ∧ t.supply.returnTimer = none) ∧
    (s.supply.mainsPresent = true → s.supply.mainsSense = false → s.supply.battery = .good → s.supply.state = .full →
      s.tester.claim = none → Completes .mainsLossQualified s fun t =>
        t.supply.state = .hold ∧ t.supply.mainsPresent = false ∧ t.handset.allowance = 1 ∧ t.line = s.line ∧
        t.tones = s.tones ∧ t.slots = s.slots ∧ t.framer = s.framer ∧ t.data = s.data ∧ t.mgmt = s.mgmt) ∧
    (s.supply.mainsPresent = true → s.supply.mainsSense = false → s.supply.battery = .low → s.supply.state = .full →
      s.tester.claim = none →
      (s.slots.allFree = false ∨ ringing ∨ s.supply.wakeWindow ≠ none →
        Completes .mainsLossQualified s fun t =>
          t.supply.state = .hold ∧ t.supply.mainsPresent = false ∧ t.supply.lowReported = true ∧
          t.handset.allowance = 1 ∧
          t.notices = (let told := raise .supply .major .mainsLost [2] s
            if s.supply.lowReported then told else raise .supply .major .batteryLow [] told).notices ∧
          t.shifts = { s.shifts with
            rx.supplyPending := s.shifts.rx.supplyPending || inService || s.line.passStarted } ∧
          t.line = s.line ∧ t.tones = s.tones ∧ t.slots = s.slots ∧ t.framer = s.framer ∧ t.data = s.data ∧
          t.overhead = s.overhead ∧ t.mgmt = s.mgmt) ∧
      (s.slots.allFree = true → ¬ ringing → s.supply.wakeWindow = none →
        Completes .mainsLossQualified s fun t => t.supply.mainsPresent = false ∧ dormant t)) ∧
    (∀ b : Battery, s.supply.mainsPresent = true → s.supply.mainsSense = false → s.supply.battery = b →
      b = .exhausted ∨ b = .none →
      (s.supply.powerLossDone = false → inService = false ∨ room →
        Completes .mainsLossQualified s fun t =>
          t.supply = { spent b s.supply with
            mainsPresent := false, lossTimer := none, returnTimer := t.supply.returnTimer } ∧
          t.notices = (lost b).notices ∧ headed b t.overhead ∧ t.line = s.line ∧
          t.tones = s.tones ∧ t.slots = s.slots ∧ t.framer = s.framer ∧ t.data = s.data ∧ t.mgmt = s.mgmt) ∧
      (s.supply.powerLossDone = true →
        Completes .mainsLossQualified s fun t =>
          t.supply.mainsPresent = false ∧ t.supply.state = s.supply.state ∧ t.supply.powerLossHold = none ∧
          t.notices = s.notices ∧ t.overhead = s.overhead ∧ t.line = s.line)) ∧
    (s.supply.mainsPresent = false → s.supply.mainsSense = true → s.supply.state = .hold →
      Completes .mainsReturnQualified s fun t =>
        t.supply.state = .full ∧ t.supply.mainsPresent = true ∧ t.supply.wakeWindow = none ∧
        t.supply.lowReported = false ∧ t.supply.powerLossDone = false ∧ t.handset.allowance = 2 ∧ t.line = s.line ∧
        t.tones = s.tones ∧ t.slots = s.slots ∧ t.framer = s.framer ∧ t.data = s.data ∧ t.mgmt = s.mgmt) ∧
    (s.supply.battery ≠ .good →
      exec (.batteryStateChange .good) s = .next { s with
        supply := { s.supply with battery := .good, lowReported := false, powerLossDone := false } }) ∧
    (s.supply.battery ≠ .low →
      let low : State := { s with supply := { s.supply with battery := .low, lowReported := true, powerLossDone := false } }
      (s.supply.mainsPresent = true ∨ s.supply.state = .full →
        exec (.batteryStateChange .low) s = .next { s with supply.battery := .low }) ∧
      (s.supply.mainsPresent = false →
        s.supply.state = .dormant ∨
          (s.supply.state = .hold ∧ (s.slots.allFree = false ∨ ringing ∨ s.supply.wakeWindow ≠ none)) →
        exec (.batteryStateChange .low) s = .next
          (if s.supply.lowReported then low else raise .supply .major .batteryLow [] low)) ∧
      (s.supply.mainsPresent = false → s.supply.state = .hold → s.slots.allFree = true → ¬ ringing →
        s.supply.wakeWindow = none → s.tester.claim = none →
        Completes (.batteryStateChange .low) s fun t =>
          t.supply.battery = .low ∧ t.supply.powerLossDone = false ∧ dormant t)) ∧
    (∀ b : Battery, b = .exhausted ∨ b = .none → s.supply.battery ≠ b →
      (s.supply.mainsPresent = true ∨ s.supply.powerLossDone = true →
        exec (.batteryStateChange b) s = .next { s with supply.battery := b }) ∧
      (s.supply.mainsPresent = false → s.supply.powerLossDone = false → inService = false ∨ room →
        ∃ o, headed b o ∧
          exec (.batteryStateChange b) s = .next { lost b with overhead := o, supply := spent b s.supply }))

/-- R184 to R188: the end of the power-loss hold, whatever of it is left when the command names it (log entry 3), and the end
of the wake window on a LOW battery with no call, enter DORMANT with the line OFF and no ring allowance; so do, 1 ms or more after
the sequence began, the last byte of the POWER_LOSS message and a loss of SERVICE that discards it, and, where no message was
placed, the first millisecond (an idle step, log entry 1); a line wake in
DORMANT starts the settle timer, and its end (log entry 3) leaves DORMANT for HOLD with a wake window of 600 s and the line in
HANDSHAKE. R94, R95: the ports whose on-phases start together are granted the units free by the table of R95, and a port
without one is skipped. -/
def Obligations.DormantIsEnteredAndLeft : Prop :=
  ∀ s : State, s.powered = true →
    (∀ h, s.supply.powerLossHold = some h → 1 ≤ h → h ≤ 300 → s.tester.claim = none →
      Completes .powerLossHoldExpiry s fun t =>
      t.supply.state = .dormant ∧ t.supply.powerLossHold = none ∧ t.line.state = .off ∧ t.handset.allowance = 0 ∧
      t.data.priority = [] ∧ t.data.bulk = [] ∧ t.archive.erase = none ∧ t.factory.items = s.factory.items ∧
      t.factory.isOpen = s.factory.isOpen ∧ t.time = { s.time with halfMs := t.time.halfMs } ∧
      t.data.buffer = s.data.buffer ∧ t.mgmt.home = s.mgmt.home) ∧
    (s.tester.claim = none →
      let spent (t : State) : Prop :=
        t.supply.state = .dormant ∧ t.supply.powerLossHold = none ∧ t.line.state = .off ∧ t.handset.allowance = 0 ∧
        t.data.priority = [] ∧ t.data.bulk = [] ∧ t.archive.erase = none
      (∀ h x reason, s.supply.powerLossHold = some h → h ≤ 298 → s.overhead.sending = some x →
        x.msg = .powerLoss reason → x.left = [] → Completes .overheadMessageSent s spent) ∧
      (∀ h, s.supply.powerLossHold = some h → h ≤ 298 → s.line.state = .service → 50 ≤ s.line.losTimer →
        Completes .noSignalTimeout s spent) ∧
      (s.supply.powerLossHold = some 300 → s.supply.powerLossWaiting = false →
        ∃ t, step { s with pending := [] } = .next t ∧ spent t)) ∧
    (s.supply.state = .hold → s.supply.wakeWindow = some 0 → s.supply.battery = .low → s.slots.allFree = true →
      s.handset.p1.state ≠ .ringing → s.handset.p2.state ≠ .ringing → s.tester.claim = none →
      Completes .wakeWindowExpiry s fun t =>
      t.supply.state = .dormant ∧ t.supply.wakeWindow = none ∧ t.line.state = .off ∧ t.handset.allowance = 0) ∧
    (s.supply.state = .hold → s.supply.wakeWindow = some 0 → s.supply.battery = .good →
      exec .wakeWindowExpiry s = .next { s with supply := { s.supply with wakeWindow := none } }) ∧
    (s.supply.state = .dormant → s.supply.settle = none → s.supply.wakeSet.line = true → s.supply.battery = .good →
      exec .lineWakeSignal s = .next { s with
        supply := { s.supply with wakeReason := .line, settle := some 100 } }) ∧
    (s.supply.state = .dormant → s.supply.settle.isSome = true → s.supply.powerLossHold = none →
      s.supply.mainsPresent = false → s.line.state = .off → s.line.enabled = true →
      Completes .settleTimerExpiry s fun t =>
        t.supply.state = .hold ∧ t.supply.wakeWindow = some 600 ∧ t.supply.settle = none ∧ t.handset.allowance = 1 ∧
        t.line.state = .handshake ∧ t.line.attempts = 0) ∧
    (∀ c1 : Cadence, s.handset.p1.state = .ringing → s.handset.p1.cadence = some c1 → c1.on = false →
      c1.timer = some 0 → s.handset.p1.unitHeld = false →
      let next (c : Cadence) : Cadence :=
        let pair := if c.pair + 1 < c.pairs.length then c.pair + 1 else 0
        ⟨c.pairs, pair, true, some (5 * (c.pairs.getD pair (1, 1)).1)⟩
      let started (r : PortRec) (c : Cadence) (got : Bool) : PortRec :=
        { r with cadence := some (next c), unitHeld := got, skipped := !got }
      (s.handset.p2.state ≠ .ringing → s.handset.p2.unitHeld = false →
        exec .cadencePhaseEnd s = .next { s with
          handset.p1 := started s.handset.p1 c1 (decide (1 ≤ s.handset.allowance)) }) ∧
      (∀ (c2 : Cadence) (got1 got2 : Bool), s.handset.p2.state = .ringing → s.handset.p2.cadence = some c2 →
        c2.on = false → c2.timer = some 0 → s.handset.p2.unitHeld = false →
        ((2 ≤ s.handset.allowance ∧ got1 = true ∧ got2 = true) ∨
          (s.handset.allowance = 1 ∧ s.handset.p1.skipped = false ∧ s.handset.p2.skipped = true ∧ got1 = false ∧
            got2 = true) ∨
          (s.handset.allowance = 1 ∧ (s.handset.p1.skipped = true ∨ s.handset.p2.skipped = false) ∧ got1 = true ∧
            got2 = false) ∨
          (s.handset.allowance = 0 ∧ got1 = false ∧ got2 = false)) →
        exec .cadencePhaseEnd s = .next { s with
          handset := { s.handset with
            p1 := started s.handset.p1 c1 got1, p2 := started s.handset.p2 c2 got2 } }))

/-! ## Management -/

/-- R39, R41, R66, R79, R103, R119, R132, R140, R149, R166, R176, R189, R191, R192, R197: a read whose arguments are in
range, dispatched on a channel that can dispatch, is answered DONE with its report, on both channels and in every line and
supply state; an answer changes the response lists and the channels alone. R198, R200: what each of the fourteen reports
holds, field by field from the state, with its enumerated values by their place in the owning rule's list, and a list cut to
the whole items that fit. The model's choices: the bytes of a field that holds none are free values (log entry 13); which
tables carry a count (log entry 17); the kind of an idle shift is the last one, DOWN after a reset (log entry 38); the next
predicted position when its timer does not run (log entry 51); the port byte of READ_SLOTS (log entry 44), the crossings of
READ_COUNTERS and READ_INTERVALS (log entry 45), routes and pending channels of READ_NOTICE_STATE (log entry 46), the number
of an origin (log entry 62) and of a test's `line before` (log entry 64). (Clamped reads and BAD_PARAMETER are not stated
here.) -/
def Obligations.ReadsAreAnswered : Prop :=
  (∀ (via : Via) (s : State), s.powered = true → channelFree via.ch s = true →
    let answer (kind : Nat) (report : List Field) : Host.Outcome State Fault Refusal :=
      .next (respond via kind .done (encodeFields (reportLimit via.ch) report) s)
    exec (.readStatus via) s = answer 0x01 (statusReport s) ∧ exec (.readLine via) s = answer 0x04 (lineReport s) ∧
    exec (.readImpulse via) s = answer 0x05 (impulseReport s) ∧ exec (.readSlots via) s = answer 0x07 (slotsReport s) ∧
    exec (.readQueues via) s = answer 0x08 (queuesReport s) ∧
    exec (.readCounters via) s = answer 0x09 (countersReport s) ∧
    exec (.readNoticeState via) s = answer 0x0B (noticesReport s) ∧
    exec (.readTestResults via) s = answer 0x0D (testReport s) ∧
    exec (.readSupply via) s = answer 0x0E (supplyReport s) ∧
    (∀ p : Port, exec (.readPort via p.index) s = answer 0x06 (portReport s p)) ∧
    (∀ (dir : Dir) (bank : BankSel) (first last : Nat), first ≤ last → last ≤ 255 →
      exec (.readTones via dir bank first last) s = answer 0x02 (tonesReport s dir bank first last)) ∧
    (∀ (dir : Dir) (x : TonePattern) (limit : Nat), 1 ≤ limit → limit ≤ 64 →
      exec (.searchTones via dir x limit) s = answer 0x03 (searchReport s dir x limit)) ∧
    (∀ first n : Nat, first ≤ 15 → 1 ≤ n → n ≤ 16 →
      exec (.readIntervals via first n) s = answer 0x0A (intervalsReport s first n)) ∧
    (∀ first n : Nat, 1 ≤ n → n ≤ 16 →
      exec (.readArchive via first n) s = answer 0x0C (archiveReport s first n))) ∧
  (∀ (via : Via) (kind : Nat) (r : Result) (data : List Byte) (s : State),
    let t := respond via kind r data s
    t = { s with mgmt := t.mgmt, data := t.data, overhead := t.overhead } ∧
    t.data.priority = s.data.priority ∧ t.data.bulk = s.data.bulk ∧ s.overhead.queue <+: t.overhead.queue ∧
    (via.ch = .operator → 16 ≤ s.overhead.queue.length →
      t = { s with mgmt.operator.responses :=
        s.mgmt.operator.responses ++ [⟨⟨via.tag, kind, r, data, via.addr, kind == 0x24 && r == .done⟩, false⟩] })) ∧
  (∀ (s : State) (limit : Nat),
    let status := encodeFields limit (statusReport s)
    let line := encodeFields limit (lineReport s)
    let slots := encodeFields limit (slotsReport s)
    let queues := encodeFields limit (queuesReport s)
    let tests := encodeFields limit (testReport s)
    let supply := encodeFields limit (supplyReport s)
    let cycles (id : Nat) (t : Option Nat) : List Byte := orFree id 4 (t.map fun n => num (n / 100 : Nat))
    let number (id : Nat) (x : Option Nat) : List Byte := orFree id 4 (x.map fun n => num n)
    let origins : List Origin := [.home, .operator, .internal]
    let lines : List LineState := [.off, .handshake, .probe, .tables, .service, .wait, .test]
    let record (cls : NoticeClass) (severity : Severity) (code : NoticeCode) : List Byte :=
      placeIn [.line, .impulse, .phone, .counter, .test, .supply, .archive, .system] cls ++
      placeIn [.info, .minor, .major, .critical] severity ++ [byteOf code.code]
    let params (ps : List Int) : List Byte := num (ps.getD 0 0) ++ num (ps.getD 1 0) ++ num (ps.getD 2 0)
    let crossed (c : List Bool) : List (List Byte) :=
      ((List.range c.length).filter fun i => c.getD i false).map fun i => num (i + 1 : Nat)
    (∀ n : Nat, n < 4294967296 →
      (be32 n).length = 4 ∧ (be32 n).foldl (fun x y => 256 * x + y.toNat) 0 = n ∧ num n = be32 n ∧
      (0 < n → num (-(n : Int)) = be32 (4294967296 - n))) ∧
    status = be32 s.mgmt.serial ++ num s.mgmt.revision ++ ([0x02#8, 0x55#8] ++ be32 s.mgmt.serial) ++
      num s.archive.powerOns ++ be32 s.time.uptime ++
      (match s.mgmt.resetKind with
        | .powerOn => [0#8]
        | .restart o => 1#8 :: placeIn [.home, .operator] o) ++
      placeIn lines s.line.state ++ placeIn [.full, .hold, .dormant] s.supply.state ++
      placeIn [.ready, .programming, .erasing, .suspended, .error] s.archive.state ++
      flagByte s.archive.programFailed ++ flagByte s.archive.eraseFailed ++ flagByte s.factory.isOpen ++
      s.factory.items.map (fun x => match x with
        | .blank => 0#8
        | .programmed _ => 1#8
        | .spoiled => 2#8) ++
      (match s.factory.programming with
        | some p => [byteOf p.index]
        | none => []) ∧
    line = placeIn lines s.line.state ++ flagByte s.line.enabled ++
      orFree 1 1 (s.line.lastLoss.map fun x => [byteOf (1 + [LossReason.lowMargin, .noSignal, .severeSeconds, .requested,
        .shiftFailed, .lineTooWeak, .disabled, .dormant, .test].idxOf x)]) ++
      (if s.line.state = .wait ∨ (s.line.state = .test ∧ ∃ c, s.tester.claim = some c ∧ c.lineBefore = some .wait) then
        num s.line.backoff else []) ++
      placeIn [.a, .b] s.tones.rxActive ++ num s.framer.rx.b ++ num s.framer.rx.d ++ flagByte s.line.rxHold ++
      placeIn [.a, .b] s.tones.txActive ++ num s.framer.tx.b ++ num s.framer.tx.d ++ flagByte s.line.txHold ++
      num s.tones.lineMargin ++ num s.tones.credit ++ num s.tones.margins.r ++ num s.tones.margins.d ++
      num s.tones.margins.m ++ num s.tones.margins.u ++ num s.line.attempts ++ num s.line.retrainSeconds ++
      num s.line.lowSeconds ++ num s.line.highSeconds ++ num s.line.severeSeconds ++ num s.line.losTimer ++
      placeIn [.idle, .pass, .offered, .agreed] s.shifts.rx.phase ++ placeIn [.down, .up, .supply] s.shifts.rx.kind ++
      flagByte s.shifts.rx.supplyPending ++ num s.shifts.rx.swapCount ++ orFree 2 4 (s.shifts.rx.holdOff.map be32) ++
      (match s.shifts.tx with
        | some t => 1#8 :: num t.swapCount
        | none => [0#8]) ++
      (match s.shifts.rxSwap with
        | some w => 1#8 :: num w.swapCount
        | none => [0#8]) ++
      (match s.shifts.txSwap with
        | some w => 1#8 :: num w.swapCount
        | none => [0#8]) ∧
    slots = [s.slots.s0, s.slots.s1].flatMap (fun r =>
        placeIn [.free, .reserved, .active] r.state ++ orFree 24 1 (r.use.map (placeIn [.outgoing, .ring])) ++
        (match r.party with
          | .none => orFree 25 1 none
          | .port p => [byteOf p.index]
          | .set .one => [1#8]
          | .set .two => [2#8]
          | .set .both => [3#8]) ++
        number 26 r.order ++ num r.number ++ be32 r.admittedAt ++ flagByte r.released ++ number 27 r.wait ++
        num r.stale ++ num r.concealed) ++
      num s.slots.admissions ++ number 28 (s.slots.newest.map fun k => if k = .s0 then 0 else 1) ++
      num s.framer.rx.v ++ num s.framer.rx.d ++ num s.framer.tx.v ++ num s.framer.tx.d ∧
    queues = [if s.data.linkUp then 0#8 else 1#8] ++ num s.data.managementType ++
      s.data.map.flatMap (placeIn [.priority, .bulk, .discard]) ++
      num (s.data.priority.map (·.length)).sum ++ num s.data.priority.length ++
      flagByte (match s.framer.up with | .frame true _ => true | _ => false) ++
      num (s.data.bulk.map (·.length)).sum ++ num s.data.bulk.length ++
      flagByte (match s.framer.up with | .frame false _ => true | _ => false) ++
      flagByte s.data.flowPause ++ number 29 s.data.pauseTimer ++
      num (s.data.buffer.map (·.bytes.length)).sum ++ num s.data.buffer.length ∧
    tests = s.tester.results.flatMap (fun e =>
        placeIn [.none, .pass, .warn, .fail, .aborted] e.verdict ++ num e.value ++
        number 30 (e.port.map Port.index) ++ orFree 31 1 (e.origin.map (placeIn origins)) ++ be32 e.uptime) ++
      (match s.tester.claim with
        | none => [0#8]
        | some c =>
          1#8 :: placeIn [.lineVoltage, .lineInsulation, .lineLoop, .portRinger, .portLeak] c.test ++
          number 32 (c.port.map Port.index) ++ placeIn origins c.origin ++ flagByte c.force ++
          orFree 33 1 (c.lineBefore.map (placeIn lines)) ++ flagByte c.automatic ++ num (c.timer / 100 : Nat)) ++
      s.tester.limits.zipIdx.flatMap (fun x => if x.2 = 4 then num x.1.fail else num x.1.warn ++ num x.1.fail) ++
      flagByte s.tester.autoPending ∧
    supply = placeIn [.full, .hold, .dormant] s.supply.state ++ [if s.supply.mainsSense then 0#8 else 1#8] ++
      [if s.supply.mainsPresent then 0#8 else 1#8] ++ number 34 s.supply.lossTimer ++ number 35 s.supply.returnTimer ++
      placeIn [.none, .good, .low, .exhausted] s.supply.battery ++ flagByte s.supply.lowReported ++
      flagByte s.supply.powerLossDone ++ flagByte s.supply.wakeSet.port1 ++ flagByte s.supply.wakeSet.port2 ++
      flagByte s.supply.wakeSet.line ++ flagByte s.supply.wakeSet.mainsReturn ++
      placeIn [.none, .port1, .port2, .line, .mainsReturn] s.supply.wakeReason ++ number 36 s.supply.settle ++
      number 37 s.supply.wakeWindow ++
      (match s.supply.powerLossHold with
        | some h => num (h / 2 : Nat)
        | none => []) ∧
    (∀ (dir : Dir) (sel : BankSel) (first last : Nat), 506 ≤ limit →
      let id := match sel, s.tones.activeId dir with
        | .a, _ | .active, .a | .standby, .b => BankId.a
        | .b, _ | .active, .b | .standby, .a => BankId.b
      let bank := s.tones.bank dir id
      let base := match dir with
        | .rx => 33
        | .tx => 6
      let all := (List.range 256).filter fun i =>
        base ≤ i && i < base + (if dir = .rx then 223 else 26) && first ≤ i && i ≤ last
      let entry (i : Nat) : List Byte :=
        let r := bank.getD (i - base) ⟨0, 0⟩
        let c := (s.tones.settings dir).getD (i - base) ⟨12, .active⟩
        let m := if dir = .rx then s.tones.meas.getD (i - base) ⟨0, 0⟩ else ⟨0, 0⟩
        [byteOf i, byteOf r.bits, byteOf (r.gain % 256).toNat, byteOf c.cap] ++ placeIn [.active, .masked, .retired] c.state ++
          [byteOf m.s, byteOf m.belowFloor]
      encodeFields limit (tonesReport s dir sel first last) =
        [byteOf (min 64 all.length)] ++ (all.take 64).flatMap entry ++ placeIn [.a, .b] id ++ num (bank.map (·.bits)).sum ++
          num (bank.map (·.gain)).sum ++ ((all.drop 64).take 1).flatMap fun (i : Nat) => num i) ∧
    (∀ (dir : Dir) (x : TonePattern) (n : Nat), 506 ≤ limit → n ≤ 64 →
      let base := match dir with
        | .rx => 33
        | .tx => 6
      let matching := (List.range 256).filter fun i =>
        let bits := ((s.tones.active dir).getD (i - base) ⟨0, 0⟩).bits
        let c := (s.tones.settings dir).getD (i - base) ⟨12, .active⟩
        base ≤ i && i < base + (if dir = .rx then 223 else 26) && (x.anyState || c.state == x.state) &&
          (x.anyLoaded || x.loaded == decide (0 < bits)) && (x.anyOverCap || x.overCap == decide (c.cap < bits)) &&
          (x.anyBelowFloor || x.belowFloor == (dir == .rx && (s.tones.meas.getD (i - base) ⟨0, 0⟩).s < 16))
      encodeFields limit (searchReport s dir x n) =
        [byteOf (min n matching.length)] ++ (matching.take n).flatMap (fun (i : Nat) => num i) ++ num matching.length) ∧
    (let i := s.impulse
      let schedule (id : Nat) (x : Option Schedule) : List Byte :=
        orFree id 4 (x.map fun y => num y.period) ++ orFree (id + 1) 4 (x.map fun y => be32 y.first) ++
          orFree (id + 2) 4 (x.map fun y => num y.width)
      HoldsList limit
        (placeIn [.search, .candidate, .locked] i.state ++ orFree 3 4 (i.reference.map be32) ++ num i.p ++
          num (i.p / 64 + 4 : Nat) ++ num i.matchCount ++ num i.missCount ++
          (match i.state, nextPredicted s with
            | .locked, some x =>
              let n := s.time.symbolNo + (x + 4294967296 - s.time.symbolCounter) % 4294967296
              be32 x ++ num ((s.time.cycleCount + n / 40) % 256 : Nat) ++ num (n % 40 : Nat)
            | _, _ => []))
        (i.history.map fun e => be32 e.position ++ num e.cycle ++ num e.symbol ++ num e.run ++
          [if e.inside then 0#8 else 1#8] ++ placeIn [.reference, .candidate, .matched, .stray, .reset] e.use)
        (flagByte i.quietEnable ++ num i.width ++ flagByte i.due ++ schedule 4 i.down ++
          schedule 7 (i.downOut.map (·.sched)) ++ schedule 10 i.up)
        (encodeFields limit (impulseReport s))) ∧
    (∀ p : Port,
      let r := s.port p
      let held : Nat := (if s.handset.p1.unitHeld then 1 else 0) + (if s.handset.p2.unitHeld then 1 else 0)
      HoldsList limit
        (placeIn [.idle, .seizing, .connected, .ringing, .refused, .noService, .silent, .testing, .disabled] r.state ++
          orFree 16 1 (r.refusal.map fun x =>
            [byteOf (1 + [Refused.capacity, .exchange, .timeout, .cleared, .shed].idxOf x)]) ++
          placeIn [.onHook, .offHook, .brk] r.loop ++ number 17 r.brk ++ number 18 r.make ++ num r.pulses ++
          num r.digits.length ++ num r.dialErrors ++ number 19 r.lastDigit ++
          number 20 (r.slot.map fun k => if k = .s0 then 0 else 1) ++ number 21 r.order)
        (match r.cadence with
          | some c => c.pairs.map fun x => num x.1 ++ num x.2
          | none => [])
        ((match r.cadence with
            | some c => num (c.pair + 1 : Nat) ++ [if c.on then 0#8 else 1#8] ++ cycles 13 c.timer
            | none => orFree 14 4 none ++ orFree 15 1 none ++ orFree 13 4 none) ++
          flagByte r.unitHeld ++ flagByte r.skipped ++ cycles 22 r.ringTimer ++ cycles 23 r.toneTimer ++
          flagByte r.wakeMark ++ num r.timing.pulse ++ num r.timing.flash ++ num r.timing.make ++ num r.timing.ring ++
          num s.handset.allowance ++ num held ++ num (s.handset.allowance - held : Nat))
        (encodeFields limit (portReport s p))) ∧
    HoldsList limit
      (num s.perf.number ++ be32 s.perf.start ++ num s.perf.seconds ++ s.perf.counters.flatMap fun (n : Nat) => num n)
      (crossed s.perf.crossings)
      (s.perf.thresholds.flatMap (fun (n : Nat) => num n) ++ num s.perf.failures ++ num s.perf.outside ++
        flagByte s.perf.noSignal)
      (encodeFields limit (countersReport s)) ∧
    (∀ first n : Nat, HoldsList limit []
      (((s.perf.ring.reverse.drop first).take n).map fun e =>
        num e.number ++ be32 e.start ++ num e.seconds ++ flagByte e.partialFlag ++
          e.counters.flatMap (fun (x : Nat) => num x) ++ [byteOf (crossed e.crossings).length] ++ (crossed e.crossings).flatten)
      (num s.perf.ring.length) (encodeFields limit (intervalsReport s first n))) ∧
    HoldsList limit (num s.notices.queue.length)
      (s.notices.queue.map fun e =>
        be16 e.notice.sequence ++ record e.notice.cls e.notice.severity e.notice.code ++ be32 e.notice.uptime ++
          [byteOf e.notice.cycle, byteOf e.notice.params.length] ++ params e.notice.params ++ be16 e.notice.lostBefore ++
          flagByte e.home ++ flagByte e.overhead)
      (s.notices.routes.flatMap (fun r => flagByte r.home ++ flagByte r.operator) ++ flagByte s.notices.homeEnable ++
        flagByte s.notices.operatorEnable ++ num s.notices.lost ++ num s.notices.nextSequence ++
        placeIn [.info, .minor, .major, .critical] s.notices.archiveThreshold)
      (encodeFields limit (noticesReport s)) ∧
    (FlashLaw s.archive → ∃ all : List (ArchRec × Nat × Nat), all.Nodup ∧
      all.Pairwise (fun x y => y.1.sequence ≤ x.1.sequence) ∧
      (∀ x, x ∈ all ↔ (s.archive.block x.2.1).read x.2.2 = some (.record x.1)) ∧
      ∀ first n : Nat, HoldsList limit []
        (((all.drop first).take n).map fun x =>
          let body := be32 x.1.sequence ++ be16 x.1.powerOns ++ be32 x.1.copy.uptime ++
            record x.1.copy.cls x.1.copy.severity x.1.copy.code ++ [byteOf x.1.copy.params.length] ++
            params x.1.copy.params ++ be16 x.1.missedBefore ++ x.1.spare
          body ++ [0#8 - body.foldl (· + ·) 0#8] ++ [byteOf x.2.1, byteOf x.2.2])
        (num all.length ++
          s.archive.table.flatMap (fun e =>
            placeIn [.erased, .current, .full, .needsErase, .bad] e.state ++ be32 e.sequence ++ num e.eraseCount ++
            num e.nextOrdinary ++ num e.nextReserved ++ num e.damaged) ++
          num s.archive.pointer ++ placeIn [.wrap, .keep] s.archive.mode ++
          placeIn [.ready, .programming, .erasing, .suspended, .error] s.archive.state ++
          flagByte s.archive.programFailed ++ flagByte s.archive.eraseFailed ++
          (match s.archive.erase with
            | some e => num e.block ++ placeIn origins e.origin ++ num (e.left / 2 : Nat)
            | none => []) ++
          num s.archive.pendingList.length ++ num s.archive.missed ++ num s.archive.powerOns ++ be32 s.archive.sequence)
        (encodeFields limit (archiveReport s first n))))

/-- R124: SET_QUEUE_MAP replaces the whole map with its 8 destinations, answered DONE, and a map with any other destination
or length is answered BAD_PARAMETER and changes nothing. R139: SET_THRESHOLDS replaces the twelve thresholds, answered
DONE, and the crossings stay; a counter whose threshold is 0 has no crossing. Both from either origin, in every line and
supply state. -/
def Obligations.MapAndThresholdsAreReplaced : Prop :=
  (∀ (via : Via) (map : List Nat) (s : State), s.powered = true → channelFree via.ch s = true →
    exec (.setQueueMap via map) s = .next
      (if map.length = 8 ∧ ∀ d ∈ map, d ≤ 2 then
        respond via 0x1A .done [] { s with
          data.map := map.map fun d => if d = 0 then .priority else if d = 1 then .bulk else .discard }
      else respond via 0x1A .badParameter [] s)) ∧
  (∀ (via : Via) (values : List Nat) (s : State), s.powered = true → channelFree via.ch s = true →
    values.length = 12 → (∀ x ∈ values, x ≤ 65535) →
    exec (.setThresholds via (values.map fun x => (x : Int))) s = .next
      (respond via 0x1B .done [] { s with perf.thresholds := values })) ∧
  (∀ (c : Counter) (s : State), s.perf.thresholds.getD c.index 0 = 0 →
    (count c s).perf.crossings = s.perf.crossings ∧ (count c s).notices = s.notices)

/-- R95, R129, R190, R191, R195, with R17, R19, R20, R25: every step keeps the values in their ranges: the margins in order, also
those of the Factory Store; bits, gains and caps, also of the swaps in flight; the ring units held within the allowance of the
supply state; the home delivery buffer within 6144 bytes, and the response lists within 9 (log entry 28). -/
def Obligations.RangeLawIsKept : Prop :=
  ∀ s t : State, RangeLaw s → step s = .next t → RangeLaw t

/-- R24, R25, R40, R64, R65, R78, R100 to R102, R148, R149, R178, R189: the requests that write a setting. A value outside
its range is clamped and the answer is DONE_CLAMPED, otherwise DONE; an order or form that is broken is answered
BAD_PARAMETER and changes nothing. A step of M is clamped to D + 1..U − 1 (for margins in the order of R25); a group write of
caps is fitted tone by tone, and of states clears the below-floor seconds; SET_QUIET makes a schedule due or cancels the one
in force or outstanding; SET_PORT disables and enables a port by its state; SET_ROUTES replaces one side, and a master enable
that goes off takes its channel from every waiting notice. The model's choice, not R40's words: the values of the field
STATE, 0 for ACTIVE and 1 for MASKED, any other BAD_PARAMETER (log entry 17); R100's: DISABLE clears the skipped flag of an
IDLE port too (log entry 56), R105's: the seizure wait of a released slot stops (log entry 57), and R109's: every unsent SEIZE of the slot is removed, where
there are two (log entry 76). (Cancels and releases
with room in the overhead queue. Tone indices out of order or outside 0..255, and a call whose port holds no slot, are not
stated here.) -/
def Obligations.SettingsAreWritten : Prop :=
  ∀ (via : Via) (s : State), s.powered = true → channelFree via.ch s = true →
    let fit (lo hi x : Int) : Nat := (max lo (min hi x)).toNat
    let result (inRange : Bool) : Result := if inRange then .done else .doneClamped
    let within (lo hi x : Int) : Bool := lo ≤ x && x ≤ hi
    (via.ch = .operator →
      (∀ r d m u : Int,
        let x : Margins := ⟨fit 0 63 r, fit 0 63 d, fit 0 63 m, fit 0 63 u⟩
        exec (.setMargins via r d m u) s = .next
          (if x.r ≤ x.d ∧ x.d < x.m ∧ x.m < x.u then
            respond via 0x12 (result (within 0 63 r && within 0 63 d && within 0 63 m && within 0 63 u)) []
              { s with tones.margins := x }
          else respond via 0x12 .badParameter [] s)) ∧
      (s.tones.margins.d < s.tones.margins.m → s.tones.margins.m < s.tones.margins.u →
        exec (.stepMargin via .up) s = .next
          (if s.tones.margins.m + 4 < s.tones.margins.u then
            respond via 0x13 .done [] { s with tones.margins.m := s.tones.margins.m + 4 }
          else respond via 0x13 .doneClamped [] { s with tones.margins.m := s.tones.margins.u - 1 }) ∧
        exec (.stepMargin via .down) s = .next
          (if s.tones.margins.d + 5 ≤ s.tones.margins.m then
            respond via 0x13 .done [] { s with tones.margins.m := s.tones.margins.m - 4 }
          else respond via 0x13 .doneClamped [] { s with tones.margins.m := s.tones.margins.d + 1 })) ∧
      (∀ tone : Int, exec (.setHoldCeiling via tone) s = .next
        (respond via 0x14 (result (within 48 255 tone)) [] { s with tones.holdCeiling := fit 48 255 tone })) ∧
      (∀ table : List Int, exec (.loadThresholds via table) s = .next
        (if table.length = 11 ∧ (table.map (fit 0 255)).Pairwise (· < ·) then
          respond via 0x15 (result (table.all (within 0 255))) [] { s with tones.thresholds := table.map (fit 0 255) }
        else respond via 0x15 .badParameter [] s)) ∧
      (∀ es : List (List (Int × Int)), exec (.loadCadences via es) s = .next
        (if es.length = 8 ∧ ∀ e ∈ es, 1 ≤ e.length ∧ e.length ≤ 4 then
          respond via 0x19 (result (es.all fun e => e.all fun p => within 1 100 p.1 && within 1 100 p.2)) []
            { s with handset.cadences := es.map fun e => e.map fun p => (fit 1 100 p.1, fit 1 100 p.2) }
        else respond via 0x19 .badParameter [] s)) ∧
      (∀ x : Severity, exec (.setArchiveThreshold via x.code) s = .next
        (respond via 0x1D .done [] { s with notices.archiveThreshold := x })) ∧
      (∀ (test : TestType) (warn fail : Int),
        let top : Int := match test with
          | .lineVoltage => 200 | .lineInsulation => 10000 | .lineLoop => 9999 | .portRinger => 60 | .portLeak => 10000
        let w := if test = .portLeak then 0 else fit 0 top warn
        let f := fit 0 top fail
        let ordered : Bool := match test with
          | .lineVoltage => w ≤ f | .lineInsulation => f ≤ w | .lineLoop => f < w | .portRinger => w < f
          | .portLeak => true
        exec (.setTestLimits via test.index warn fail) s = .next
          (if ordered then
            respond via 0x22 (result ((test == .portLeak || within 0 top warn) && within 0 top fail)) []
              { s with tester.limits := s.tester.limits.set test.index ⟨w, f⟩ }
          else respond via 0x22 .badParameter [] s))) ∧
    (∀ (dir : Dir) (first last : Nat) (stride : Int), first ≤ last → last ≤ 255 →
      let selected (i : Nat) : Bool :=
        first ≤ firstTone dir + i && firstTone dir + i ≤ last && (firstTone dir + i - first) % fit 1 16 stride == 0
      (∀ (fn : ToneFn) (value : Int),
        let given (c : ToneSetting) : Int := match fn with
          | .set => value | .add => c.cap + value | .min => min (c.cap : Int) value | .max => max (c.cap : Int) value
        let fitted (x : Int) : Nat := if x < 2 then 0 else if 12 < x then 12 else x.toNat
        exec (.writeTones via dir first last stride .cap fn value) s = .next
          (respond via 0x10
            (result (within 1 16 stride && (s.tones.settings dir).zipIdx.all fun x =>
              !selected x.2 || ((fitted (given x.1) : Nat) : Int) == given x.1)) []
            { s with
              tones := s.tones.setSettings dir
                ((s.tones.settings dir).mapIdx fun i c => if selected i then ⟨fitted (given c), c.state⟩ else c) })) ∧
      (∀ st : ToneState, st ≠ .retired →
        exec (.writeTones via dir first last stride .state .set st.code) s = .next
          (respond via 0x10 (result (within 1 16 stride)) []
            { s with
              tones :=
              let t := s.tones.setSettings dir
                ((s.tones.settings dir).mapIdx fun i c => if selected i then ⟨c.cap, st⟩ else c)
              match dir with
              | .rx => { t with meas := t.meas.mapIdx fun i m => if selected i then ⟨m.s, 0⟩ else m }
              | .tx => t })) ∧
      (∀ (fn : ToneFn) (value : Int), fn ≠ .set ∨ (value ≠ 0 ∧ value ≠ 1) →
        exec (.writeTones via dir first last stride .state fn value) s = .next (respond via 0x10 .badParameter [] s))) ∧
    (∀ width : Int,
      let w := fit 1 4 width
      let i := s.impulse
      let inForce := i.state == .locked && s.line.state == .service
      exec (.setQuiet via width true) s = .next (respond via 0x16 (result (within 1 4 width)) [] { s with
        impulse := { i with
          quietEnable := true, width := w, exchangeCancel := false
          due := i.due || (inForce && (!i.quietEnable || i.width != w || i.exchangeCancel)) } }) ∧
      (i.quietEnable = false ∨ inForce = false →
        exec (.setQuiet via width false) s = .next (respond via 0x16 (result (within 1 4 width)) [] { s with
          impulse := { i with quietEnable := false, width := w } })) ∧
      (i.quietEnable = true → inForce = true → i.down.isSome = true → i.downOut = none → s.overhead.queue.length < 16 →
        s.overhead.waitingLine = [] → s.overhead.waitingSignal = [] →
        exec (.setQuiet via width false) s = .next (respond via 0x16 (result (within 1 4 width)) [] { s with
          impulse := { i with quietEnable := false, width := w, due := false }
          overhead := { s.overhead with
            queue := s.overhead.queue ++ [⟨s.overhead.nextPlace, .quietCancel⟩]
            nextPlace := s.overhead.nextPlace + 1 } })) ∧
      (∀ o, i.quietEnable = true → inForce = true → i.downOut = some o → s.overhead.queue.length < 16 →
        s.overhead.waitingLine = [] → s.overhead.waitingSignal = [] →
        let off (rest : List QueuedMsg) (out : Option Outstanding) (cancel : Bool) : State := { s with
          impulse := { i with quietEnable := false, width := w, due := false, downOut := out }
          overhead := { s.overhead with
            queue := if cancel then rest ++ [⟨s.overhead.nextPlace, .quietCancel⟩] else rest
            nextPlace := if cancel then s.overhead.nextPlace + 1 else s.overhead.nextPlace } }
        ((∃ q ∈ s.overhead.queue, isQuietSchedule q.msg = true) →
          exec (.setQuiet via width false) s = .next (respond via 0x16 (result (within 1 4 width)) []
            (off (s.overhead.queue.filter fun q => !isQuietSchedule q.msg) none i.down.isSome))) ∧
        ((∀ q ∈ s.overhead.queue, isQuietSchedule q.msg = false) →
          exec (.setQuiet via width false) s = .next (respond via 0x16 (result (within 1 4 width)) []
            (off s.overhead.queue (some o) true))))) ∧
    (∀ (number : Int) (action : PortAction) (a b c d : Int), number ≠ 1 → number ≠ 2 →
      exec (.setPort via number action) s = .next (respond via 0x17 .badParameter [] s) ∧
      exec (.setPortTiming via number a b c d) s = .next (respond via 0x18 .badParameter [] s)) ∧
    (∀ p : Port,
      let r := s.port p
      let disabled : PortRec := { r.settled with state := .disabled, skipped := false }
      (r.state = .idle ∨ r.state = .refused ∨ r.state = .noService ∨ r.state = .silent →
        exec (.setPort via p.index .disable) s = .next (respond via 0x17 .done [] (s.setPort p disabled))) ∧
      (r.state = .disabled → exec (.setPort via p.index .disable) s = .next (respond via 0x17 .done [] s)) ∧
      (r.state = .testing → exec (.setPort via p.index .disable) s = .next (respond via 0x17 .refusedState [] s)) ∧
      (∀ k, s.line.state = .service → s.overhead.queue.length < 16 → s.overhead.waitingLine = [] →
        s.overhead.waitingSignal = [] → r.slot = some k → (s.slot k).released = false →
        let sent (m : Msg) : State :=
          { (s.setSlot k { s.slot k with released := true, wait := none }).setPort p disabled with
            overhead := { s.overhead with
              queue := s.overhead.queue ++ [⟨s.overhead.nextPlace, m⟩], nextPlace := s.overhead.nextPlace + 1 } }
        (r.state = .connected → (s.slot k).state = .active →
          exec (.setPort via p.index .disable) s = .next (respond via 0x17 .done [] (sent (.release k .disabled)))) ∧
        (r.state = .seizing → (s.slot k).seizing = true →
          ((∀ q ∈ s.overhead.queue, isSeize k q.msg = false) →
            exec (.setPort via p.index .disable) s = .next (respond via 0x17 .done []
              ((sent (.release k .disabled)).setSlot k { s.slot k with
                released := true, wait := none
                stale := if (s.slot k).stale < 15 then (s.slot k).stale + 1 else (s.slot k).stale }))) ∧
          ((∃ q ∈ s.overhead.queue, isSeize k q.msg = true) →
            exec (.setPort via p.index .disable) s = .next (respond via 0x17 .done []
              { (s.setSlot k { s.slot k with released := true, wait := none }).setPort p disabled with
                overhead.queue := s.overhead.queue.filter fun q => !isSeize k q.msg }))) ∧
        (∀ order, r.state = .ringing → r.order = some order → (s.port (otherPort p)).state ≠ .ringing →
          exec (.setPort via p.index .disable) s = .next (respond via 0x17 .done [] (sent (.noAnswer order))))) ∧
      (∀ k order, r.state = .ringing → r.slot = some k → r.order = some order →
        (s.port (otherPort p)).state = .ringing → (s.port (otherPort p)).slot = some k →
        exec (.setPort via p.index .disable) s = .next (respond via 0x17 .done []
          ((s.setPort p disabled).setSlot k { s.slot k with
            party := .set (match p with | .p1 => .two | .p2 => .one) }))) ∧
      (r.state = .disabled → r.loop = .onHook →
        exec (.setPort via p.index .enable) s = .next
          (respond via 0x17 .done [] (s.setPort p { r.settled with state := .idle }))) ∧
      (r.state = .disabled → r.loop ≠ .onHook →
        exec (.setPort via p.index .enable) s = .next
          (respond via 0x17 .done [] (offHookInIdle p (s.setPort p { r.settled with state := .idle })))) ∧
      (r.state ≠ .disabled → exec (.setPort via p.index .enable) s = .next (respond via 0x17 .done [] s)) ∧
      (∀ a b c d : Int,
        let x : Timing := ⟨fit 60 150 a, fit 300 1000 b, fit 100 300 c, fit 10 600 d⟩
        exec (.setPortTiming via p.index a b c d) s = .next
          (if x.pulse + 100 < x.flash then
            respond via 0x18 (result (within 60 150 a && within 300 1000 b && within 100 300 c && within 10 600 d)) []
              (s.setPort p { r with timing := x })
          else respond via 0x18 .badParameter [] s))) ∧
    (∀ (flags : List Bool) (master : Bool), flags.length = 8 →
      let n := s.notices
      exec (.setRoutes via .home flags master) s = .next (respond via 0x1C .done [] { s with notices := { n with
        routes := (n.routes.zip flags).map fun x => ⟨x.2, x.1.operator⟩, homeEnable := master
        queue := if master then n.queue else
          (n.queue.map fun e => { e with home := false, homeReturn := none }).filter fun e => e.home || e.overhead } }) ∧
      (via.ch = .operator → exec (.setRoutes via .operator flags master) s =
        .next (respond via 0x1C .done [] { s with notices := { n with
          routes := (n.routes.zip flags).map fun x => ⟨x.1.home, x.2⟩, operatorEnable := master
          queue := if master then n.queue else
            (n.queue.map fun e => { e with overhead := false, overheadReturn := none }).filter
              fun e => e.home || e.overhead } }))) ∧
    (∀ a b c d : Bool,
      exec (.setWake via a b c d) s = .next (respond via 0x23 .done [] { s with supply.wakeSet := ⟨a, b, c, d⟩ }))

/-- R63, R162, R164, R165, R171 to R173, R175, R194, R196: the requests that act. LINE_CONTROL: ENABLE sets the flag and takes an
OFF line into HANDSHAKE unless the supply is DORMANT; DISABLE clears it and takes the line to OFF, out of SERVICE with reason
DISABLED (R54, R55), an attempt given up without a failure and a line test aborted; RETRAIN_NOW leaves SERVICE with reason
REQUESTED, begins a new attempt in WAIT, HANDSHAKE, PROBE and TABLES, and is refused in OFF and TEST. RUN_TEST is judged in the
order of R171; a line test takes the line from OFF, WAIT, HANDSHAKE and, when forced, from SERVICE with both slots FREE, and a
port test an IDLE port. (What leaves SERVICE is stated in FULL with no power-loss hold, so that no entry to DORMANT follows.) The
archive leaves ERROR, an erase of a block that is not CURRENT starts, a restart becomes pending with its DONE still to be sent,
and the Factory Store opens, closes and starts a programming of 10 ms. The port test asks only for an IDLE port, not that its last
call's slot be FREE, which is the model's choice (log entry 65); the first parameter of TEST_RESULT is a free value (log entry
15), and its verdict is numbered as the model numbers it (log entry 16). -/
def Obligations.ActionsAreTaken : Prop :=
  ∀ (via : Via) (s : State), s.powered = true → channelFree via.ch s = true →
    let quietSupply := s.supply.state = .full ∧ s.supply.powerLossHold = none
    let handshake (u : State) : Prop :=
      u.line.state = .handshake ∧ u.line.handshakeTimer = some 1000 ∧ u.line.enabled = s.line.enabled ∧
      u.line.attempts = s.line.attempts ∧
      u.framer.trainOut = trainingBytes 0x01#8 (flagByte (s.supply.state == .hold)) ∧
      u = { s with line := u.line, loader := u.loader, shifts := u.shifts, framer := u.framer }
    let noAttempt (u : State) : Prop :=
      u.line.handshakeTimer = none ∧ u.line.tablesTimer = none ∧ u.line.probeTimer = none ∧ u.line.probeStart = none ∧
      u.line.startRepeat = none ∧ u.line.attempts = s.line.attempts ∧ u.framer.lineOut = .silent ∧
      (∀ p, u.loader.running = some p → p.training = false)
    let onlyOwnCounts (u : State) : Prop := ∀ i, 2 ≤ i → u.perf.counters.getD i 0 = s.perf.counters.getD i 0
    (let answered (action : LineAction) (r : Result) (u : State) : Prop :=
        exec (.lineControl via action) s = .next (respond via 0x11 r [] u);
      (s.line.state ≠ .off ∨ s.supply.state = .dormant → answered .enable .done { s with line.enabled := true }) ∧
      (s.line.state = .off → s.supply.state ≠ .dormant → ∃ u, answered .enable .done u ∧
        u.line.state = .handshake ∧ u.line.handshakeTimer = some 1000 ∧ u.line.enabled = true ∧ u.line.attempts = 0 ∧
        u.framer.trainOut = trainingBytes 0x01#8 (flagByte (s.supply.state == .hold)) ∧
        u.tester = { s.tester with autoPending := false } ∧
        u = { s with line := u.line, loader := u.loader, shifts := u.shifts, framer := u.framer, tester := u.tester }) ∧
      (s.line.state = .off → answered .disable .done { s with line.enabled := false }) ∧
      (s.line.state = .service → quietSupply → ∃ u, answered .disable .done u ∧
        u.line.state = .off ∧ u.line.enabled = false ∧ u.line.lastLoss = some .disabled ∧
        u.line.attempts = s.line.attempts ∧ OutOfService u ∧ onlyOwnCounts u) ∧
      (s.line.state = .handshake ∨ s.line.state = .probe ∨ s.line.state = .tables ∨ s.line.state = .wait →
        (∀ c, s.tester.claim = some c → lineTest c.test = false) → ∃ u, answered .disable .done u ∧
          u.line.state = .off ∧ u.line.enabled = false ∧ noAttempt u ∧
          u = { s with line := u.line, loader := u.loader, shifts := u.shifts, framer := u.framer }) ∧
      (∀ c, s.line.state = .test → s.tester.claim = some c → lineTest c.test = true → c.port = none →
        ∃ u, answered .disable .done u ∧ u.line.state = .off ∧ u.line.enabled = false ∧ noAttempt u ∧
          u.tester = { s.tester with
            claim := none
            results := s.tester.results.set c.test.index ⟨.aborted, 0, none, some c.origin, s.time.uptime⟩ } ∧
          u.notices = (raise .test .info .testResult [Config.testTarget c.test.index 0, 0, 4] s).notices ∧
          u = { s with
            line := u.line, loader := u.loader, shifts := u.shifts, framer := u.framer, tester := u.tester
            archive := u.archive, notices := u.notices }) ∧
      (s.line.state = .service → quietSupply → ∃ u, answered .retrainNow .done u ∧
        u.line.state = .wait ∧ u.line.backoff = 1 ∧ u.line.enabled = s.line.enabled ∧
        u.line.lastLoss = some .requested ∧ u.line.attempts = s.line.attempts ∧ OutOfService u ∧
        (s.perf.counters.getD 4 0 < 65535 → 4 < s.perf.counters.length →
          u.perf.counters.getD 4 0 = s.perf.counters.getD 4 0 + 1)) ∧
      (s.line.state = .wait → ∃ u, answered .retrainNow .done u ∧ u.line.backoff = 0 ∧ handshake u) ∧
      (s.line.state = .handshake ∨ s.line.state = .probe ∨ s.line.state = .tables →
        ∃ u, answered .retrainNow .done u ∧ handshake u) ∧
      (s.line.state = .off ∨ s.line.state = .test → answered .retrainNow .refusedState s)) ∧
    (let answered (test : Nat) (port : Int) (force : Bool) (r : Result) (u : State) : Prop :=
        exec (.runTest via test port force) s = .next (respond via 0x21 r [] u);
      (∀ test port force, 5 ≤ test → answered test port force .badParameter s) ∧
      (∀ (k : TestType) (port : Int) (force : Bool),
        let onLine := k = .lineVoltage ∨ k = .lineInsulation ∨ k = .lineLoop
        let duration := match k with
          | .lineVoltage => 100 | .lineInsulation => 300 | .lineLoop => 200 | .portRinger => 200 | .portLeak => 100
        let held (p : Option Port) (forced : Bool) (before : Option LineState) : Tester :=
          { s.tester with claim := some ⟨k, p, Channel.origin via.ch, forced, before, duration, false⟩ }
        (¬ onLine → port ≠ 1 → port ≠ 2 → answered k.index port force .badParameter s) ∧
        (onLine ∨ port = 1 ∨ port = 2 →
          (s.tester.claim.isSome = true → answered k.index port force .busy s) ∧
          (s.tester.claim = none → s.supply.state ≠ .full → answered k.index port force .refusedState s)) ∧
        (s.tester.claim = none → s.supply.state = .full →
          (onLine →
            (s.line.state = .probe ∨ s.line.state = .tables ∨ s.line.state = .test ∨
                (s.line.state = .service ∧ (force = false ∨ s.slots.allFree = false)) →
              answered k.index port force .refusedState s) ∧
            (s.line.state = .off ∨ s.line.state = .wait →
              answered k.index port force .accepted
                { s with tester := held none false (some s.line.state), line.state := .test }) ∧
            (s.line.state = .handshake → ∃ u, answered k.index port force .accepted u ∧ u.line.state = .test ∧
              noAttempt u ∧ u.tester = held none false (some .handshake) ∧
              u = { s with
                line := u.line, loader := u.loader, shifts := u.shifts, framer := u.framer, tester := u.tester }) ∧
            (s.line.state = .service → force = true → s.slots.allFree = true → s.supply.powerLossHold = none →
              ∃ u, answered k.index port force .accepted u ∧ u.line.state = .test ∧ u.line.lastLoss = some .test ∧
                u.line.attempts = s.line.attempts ∧ u.tester = held none true (some .service) ∧ OutOfService u ∧
                onlyOwnCounts u)) ∧
          (¬ onLine → ∀ p : Port, port = p.index →
            answered k.index port force (if (s.port p).state = .idle then .accepted else .refusedState)
              (if (s.port p).state = .idle then
                ({ s with tester := held (some p) false none } : State).setPort p
                  { (s.port p).settled with state := .testing }
              else s))))) ∧
    (s.archive.state = .error → Completes (.clearArchiveStatus via) s fun t =>
      t.archive.programFailed = false ∧ t.archive.eraseFailed = false ∧ t.archive.state ≠ .error) ∧
    (s.mgmt.restart = none → exec (.restart via) s = .next
      (respond via 0x24 .done [] { s with mgmt.restart := some ⟨via.ch, 100, 1⟩ })) ∧
    (via.ch = .operator →
      (∀ b : Nat, b ≤ 3 → s.supply.state ≠ .dormant → s.archive.state = .ready → s.archive.blockSequence < 4294967295 →
        (s.archive.entry b).state ≠ .current → s.archive.table.length = 4 → s.archive.flash.length = 4 →
        s.archive.pendingList = [] →
        Completes (.eraseArchiveBlock via b) s fun t =>
          t.archive.erase = some ⟨b, .operator, 800⟩ ∧ t.archive.state = .erasing ∧
          (t.archive.entry b).nextOrdinary = 0 ∧ (t.archive.entry b).nextReserved = 126) ∧
      (∀ i, s.archive.current = some i →
        exec (.setArchiveMode via 1) s = .next
          (respond via 0x1F .done [] { s with archive := { s.archive with mode := .keep, fullReported := false } })) ∧
      exec (.factoryOpen via) s = .next (respond via 0x25 .done [] { s with factory.isOpen := true }) ∧
      exec (.factoryClose via) s = .next (respond via 0x26 .done [] { s with factory.isOpen := false }) ∧
      (∀ tone : Nat, 48 ≤ tone → tone ≤ 255 → s.factory.isOpen = true → s.factory.programming = none →
        s.factory.items[5]? = some .blank →
        exec (.factoryProgram via (.holdCeiling tone)) s = .next { s with
          factory.programming := some ⟨5, .holdCeiling tone, via, 20⟩ }))

/-- R190 to R192, R196: a request that arrives at a queue with room joins its tail; dispatch takes the head from the queue,
serves a READ_STATUS with DONE and answers UNKNOWN_REQUEST to a kind outside the table; a kind for the operator alone is
answered REFUSED_ORIGIN on the home channel and changes nothing; the end of a programming, at any time left (log entry 3),
makes its item PROGRAMMED or SPOILED. (The answer that the end gives is not stated here.) -/
def Obligations.RequestsAreDispatched : Prop :=
  (∀ (request : List Byte) (s : State), s.powered = true → s.line.state = .service → 5 ≤ request.length →
    request.length ≤ 512 → s.mgmt.operator.requests.length < 4 →
    exec (.mgmtRequest request) s = .next { s with
      mgmt.operator.requests := s.mgmt.operator.requests ++ [⟨request, []⟩] }) ∧
  (∀ (ch : Channel) (q : QueuedRequest) (rest : List QueuedRequest) (s : State), s.powered = true →
    channelFree ch s = true → (s.chan ch).requests = q :: rest → knownKind (q.bytes.getD 2 0#8).toNat = false →
    exec (.requestDispatch ch) s = .next
      (respond ⟨ch, requestTag q.bytes, q.addr⟩ (q.bytes.getD 2 0#8).toNat .unknownRequest []
        (onChan ch (fun c => { c with requests := rest }) s))) ∧
  (∀ (ch : Channel) (hi lo : Byte) (addr : List Byte) (rest : List QueuedRequest) (s : State), s.powered = true →
    channelFree ch s = true → (s.chan ch).requests = ⟨[hi, lo, 0x01#8, 0x00#8, 0x00#8], addr⟩ :: rest →
    let taken := onChan ch (fun c => { c with requests := rest }) s
    exec (.requestDispatch ch) s = .next
      (respond ⟨ch, 256 * hi.toNat + lo.toNat, addr⟩ 0x01 .done
        (encodeFields (reportLimit ch) (statusReport taken)) taken)) ∧
  (∀ (via : Via) (s : State), s.powered = true → channelFree .home s = true → via.ch = .home →
    (∀ tone, exec (.setHoldCeiling via tone) s = .next (respond via 0x14 .refusedOrigin [] s)) ∧
    (∀ value, exec (.factoryProgram via value) s = .next (respond via 0x27 .refusedOrigin [] s)) ∧
    (∀ flags master, exec (.setRoutes via .operator flags master) s =
      .next (respond via 0x1C .refusedOrigin [] s))) ∧
  (∀ (agrees : Bool) (p : Programming) (s : State), s.powered = true → s.factory.programming = some p →
    p.index < s.factory.items.length →
    Completes (.factoryProgramDone agrees) s fun t =>
      t.factory.programming = none ∧
      t.factory.items = s.factory.items.set p.index (if agrees then .programmed p.value else .spoiled) ∧
      t.factory.isOpen = s.factory.isOpen)
end

