-- ==== Sys2Proof/Laws/Flash.lean ====
section
/-! SUPPORT. The flash array's laws: what a slot reads after a write, and that every write keeps the canonical form. -/
namespace Sys2Proof.Machine

/-- The canonical form as a proposition: slot numbers strictly rising, each in 0..127. -/
def SlotsSorted (l : List (Nat × SlotImage)) : Prop := l.IsChain (fun x y => x.1 < y.1) ∧ ∀ x ∈ l, x.1 < 128

theorem zip_tail_all_iff (l : List (Nat × SlotImage)) :
    ((l.zip l.tail).all fun e => decide (e.1.1 < e.2.1)) = true ↔ l.IsChain fun x y => x.1 < y.1 := by
  induction l with
  | nil => simp
  | cons x rest ih =>
    cases rest with
    | nil => simp
    | cons y more => simpa using fun _ => ih

theorem wf_iff_sorted (b : FlashBlock) : b.wf = true ↔ SlotsSorted b.slots := by
  rw [FlashBlock.wf, SlotsSorted, Bool.and_eq_true, zip_tail_all_iff, and_comm]
  simp only [List.all_eq_true, decide_eq_true_eq]

theorem putSlot_mem (slot : Nat) (img : SlotImage) (l : List (Nat × SlotImage)) :
    ∀ x ∈ putSlot slot img l, x = (slot, img) ∨ x ∈ l := by
  induction l with
  | nil => simp [putSlot]
  | cons y rest ih =>
    obtain ⟨k, z⟩ := y
    intro x hx
    unfold putSlot at hx
    split at hx
    · simpa using hx
    · split at hx
      · simp at hx ⊢; tauto
      · simp only [List.mem_cons] at hx ⊢
        rcases hx with h | h
        · exact .inr (.inl h)
        · rcases ih x h with h | h
          · exact .inl h
          · exact .inr (.inr h)

theorem putSlot_sorted (slot : Nat) (img : SlotImage) (l : List (Nat × SlotImage)) (hs : slot < 128)
    (h : SlotsSorted l) : SlotsSorted (putSlot slot img l) := by
  refine ⟨?_, fun x hx => ?_⟩
  · have hp : l.Pairwise (fun x y => x.1 < y.1) := by
      have : Trans (fun x y : Nat × SlotImage => x.1 < y.1) (fun x y : Nat × SlotImage => x.1 < y.1)
          (fun x y : Nat × SlotImage => x.1 < y.1) :=
        ⟨fun a b => Nat.lt_trans a b⟩
      exact List.isChain_iff_pairwise.mp h.1
    suffices hq : (putSlot slot img l).Pairwise (fun x y => x.1 < y.1) from hq.isChain
    clear h
    induction l with
    | nil => simp [putSlot]
    | cons y rest ih =>
      obtain ⟨k, z⟩ := y
      have hr := List.pairwise_cons.mp hp
      unfold putSlot
      split
      · rename_i hlt
        refine List.pairwise_cons.mpr ⟨fun x hx => ?_, hp⟩
        rcases List.mem_cons.mp hx with rfl | hx
        · exact hlt
        · exact Nat.lt_trans hlt (hr.1 x hx)
      · split
        · rename_i he
          exact List.pairwise_cons.mpr ⟨fun x hx => he ▸ hr.1 x hx, hr.2⟩
        · refine List.pairwise_cons.mpr ⟨fun x hx => ?_, ih hr.2⟩
          rcases putSlot_mem slot img rest x hx with rfl | hx
          · dsimp only; omega
          · exact hr.1 x hx
  · rcases putSlot_mem slot img l x hx with rfl | hx
    · exact hs
    · exact h.2 x hx

/-- R150: a write to a slot of 0..127 keeps the block's canonical form. -/
theorem FlashBlock.write_wf (b : FlashBlock) (slot : Nat) (img : SlotImage) (hs : slot < 128) (h : b.wf = true) :
    (b.write slot img).wf = true :=
  (wf_iff_sorted _).mpr (putSlot_sorted slot img b.slots hs ((wf_iff_sorted b).mp h))

theorem FlashBlock.blank_wf (h : Option Header) : (⟨h, []⟩ : FlashBlock).wf = true := rfl

@[simp] theorem FlashBlock.write_header (b : FlashBlock) (slot : Nat) (img : SlotImage) :
    (b.write slot img).header = b.header := rfl

/-- A slot that has been written reads as what was written. -/
@[simp] theorem FlashBlock.read_write_same (b : FlashBlock) (slot : Nat) (img : SlotImage) :
    (b.write slot img).read slot = some img := by
  obtain ⟨hd, l⟩ := b
  simp only [FlashBlock.write, FlashBlock.read]
  induction l with
  | nil => simp [putSlot]
  | cons y rest ih =>
    obtain ⟨k, z⟩ := y
    unfold putSlot
    split
    · simp
    · split
      · simp
      · rename_i hne
        have : ¬ k = slot := fun h => hne h.symm
        simpa [this] using ih

/-- Every other slot reads as before. -/
theorem FlashBlock.read_write_other (b : FlashBlock) (slot k : Nat) (img : SlotImage) (h : k ≠ slot) :
    (b.write slot img).read k = b.read k := by
  obtain ⟨hd, l⟩ := b
  simp only [FlashBlock.write, FlashBlock.read]
  have hs : ¬ slot = k := fun e => h e.symm
  induction l with
  | nil => simp [putSlot, hs]
  | cons y rest ih =>
    obtain ⟨j, z⟩ := y
    unfold putSlot
    split
    · simp [hs]
    · split
      · rename_i he
        subst he
        simp [hs]
      · by_cases hj : j = k
        · simp [hj]
        · simpa [hj] using ih

theorem Archive.setBlock_length (a : Archive) (i : Nat) (f : FlashBlock → FlashBlock) :
    (a.setBlock i f).flash.length = a.flash.length := by simp [Archive.setBlock]

/-- A block other than the one changed stays. -/
theorem Archive.setBlock_other (a : Archive) (i j : Nat) (f : FlashBlock → FlashBlock) (h : j ≠ i) :
    (a.setBlock i f).block j = a.block j := by
  have : ¬ i = j := fun e => h e.symm
  simp [Archive.setBlock, Archive.block, List.getD_eq_getElem?_getD, this]

theorem Archive.setBlock_same (a : Archive) (i : Nat) (f : FlashBlock → FlashBlock) (h : i < a.flash.length) :
    (a.setBlock i f).block i = f (a.block i) := by
  simp [Archive.setBlock, Archive.block, List.getD_eq_getElem?_getD, h]

/-- A change of one block that keeps its form keeps the form of the array. -/
theorem Archive.setBlock_wf (a : Archive) (i : Nat) (f : FlashBlock → FlashBlock) (h : ∀ b ∈ a.flash, b.wf = true)
    (hf : ∀ b, b.wf = true → (f b).wf = true) : ∀ b ∈ (a.setBlock i f).flash, b.wf = true := by
  intro b hb
  simp only [Archive.setBlock] at hb
  obtain ⟨j, hj, rfl⟩ := List.getElem_of_mem hb
  simp only [List.length_modify] at hj
  rw [List.getElem_modify]
  split
  · exact hf _ (h _ (List.getElem_mem hj))
  · exact h _ (List.getElem_mem hj)

theorem reset_flash_wf : ∀ b ∈ State.reset.archive.flash, b.wf = true := by decide

end Sys2Proof.Machine
end

