-- ==== Sys2Proof/Laws/State.lean ====
section
/-! SUPPORT. The accessors over each update of the state: one lemma per field, true by `rfl`, tagged for `simp`. -/
namespace Sys2Proof.Machine

/-! ### `State.setPort` -/

@[simp] theorem State.setPort_pending (s : State) (p : Port) (r : PortRec) : (s.setPort p r).pending = s.pending := by cases p <;> rfl
@[simp] theorem State.setPort_powered (s : State) (p : Port) (r : PortRec) : (s.setPort p r).powered = s.powered := by cases p <;> rfl
@[simp] theorem State.setPort_time (s : State) (p : Port) (r : PortRec) : (s.setPort p r).time = s.time := by cases p <;> rfl
@[simp] theorem State.setPort_tones (s : State) (p : Port) (r : PortRec) : (s.setPort p r).tones = s.tones := by cases p <;> rfl
@[simp] theorem State.setPort_loader (s : State) (p : Port) (r : PortRec) : (s.setPort p r).loader = s.loader := by cases p <;> rfl
@[simp] theorem State.setPort_line (s : State) (p : Port) (r : PortRec) : (s.setPort p r).line = s.line := by cases p <;> rfl
@[simp] theorem State.setPort_shifts (s : State) (p : Port) (r : PortRec) : (s.setPort p r).shifts = s.shifts := by cases p <;> rfl
@[simp] theorem State.setPort_impulse (s : State) (p : Port) (r : PortRec) : (s.setPort p r).impulse = s.impulse := by cases p <;> rfl
@[simp] theorem State.setPort_framer (s : State) (p : Port) (r : PortRec) : (s.setPort p r).framer = s.framer := by cases p <;> rfl
@[simp] theorem State.setPort_overhead (s : State) (p : Port) (r : PortRec) : (s.setPort p r).overhead = s.overhead := by cases p <;> rfl
@[simp] theorem State.setPort_slots (s : State) (p : Port) (r : PortRec) : (s.setPort p r).slots = s.slots := by cases p <;> rfl
@[simp] theorem State.setPort_data (s : State) (p : Port) (r : PortRec) : (s.setPort p r).data = s.data := by cases p <;> rfl
@[simp] theorem State.setPort_perf (s : State) (p : Port) (r : PortRec) : (s.setPort p r).perf = s.perf := by cases p <;> rfl
@[simp] theorem State.setPort_notices (s : State) (p : Port) (r : PortRec) : (s.setPort p r).notices = s.notices := by cases p <;> rfl
@[simp] theorem State.setPort_archive (s : State) (p : Port) (r : PortRec) : (s.setPort p r).archive = s.archive := by cases p <;> rfl
@[simp] theorem State.setPort_tester (s : State) (p : Port) (r : PortRec) : (s.setPort p r).tester = s.tester := by cases p <;> rfl
@[simp] theorem State.setPort_supply (s : State) (p : Port) (r : PortRec) : (s.setPort p r).supply = s.supply := by cases p <;> rfl
@[simp] theorem State.setPort_mgmt (s : State) (p : Port) (r : PortRec) : (s.setPort p r).mgmt = s.mgmt := by cases p <;> rfl
@[simp] theorem State.setPort_factory (s : State) (p : Port) (r : PortRec) : (s.setPort p r).factory = s.factory := by cases p <;> rfl

@[simp] theorem State.setPort_port (s : State) (p : Port) (r : PortRec) : (s.setPort p r).port p = r := by cases p <;> rfl
@[simp] theorem State.setPort_other (s : State) (p : Port) (r : PortRec) :
    (s.setPort p r).port (otherPort p) = s.port (otherPort p) := by cases p <;> rfl
@[simp] theorem State.setPort_slot (s : State) (p : Port) (r : PortRec) (k : Slot) : (s.setPort p r).slot k = s.slot k := by
  cases p <;> cases k <;> rfl
@[simp] theorem State.setPort_cadences (s : State) (p : Port) (r : PortRec) :
    (s.setPort p r).handset.cadences = s.handset.cadences := by cases p <;> rfl
@[simp] theorem State.setPort_allowance (s : State) (p : Port) (r : PortRec) :
    (s.setPort p r).handset.allowance = s.handset.allowance := by cases p <;> rfl
@[simp] theorem State.setPort_setPort (s : State) (p : Port) (r x : PortRec) : (s.setPort p r).setPort p x = s.setPort p x := by
  cases p <;> rfl
@[simp] theorem State.setPort_self (s : State) (p : Port) : s.setPort p (s.port p) = s := by cases p <;> rfl

/-! ### `State.setSlot` -/

@[simp] theorem State.setSlot_pending (s : State) (k : Slot) (r : SlotRec) : (s.setSlot k r).pending = s.pending := by cases k <;> rfl
@[simp] theorem State.setSlot_powered (s : State) (k : Slot) (r : SlotRec) : (s.setSlot k r).powered = s.powered := by cases k <;> rfl
@[simp] theorem State.setSlot_time (s : State) (k : Slot) (r : SlotRec) : (s.setSlot k r).time = s.time := by cases k <;> rfl
@[simp] theorem State.setSlot_tones (s : State) (k : Slot) (r : SlotRec) : (s.setSlot k r).tones = s.tones := by cases k <;> rfl
@[simp] theorem State.setSlot_loader (s : State) (k : Slot) (r : SlotRec) : (s.setSlot k r).loader = s.loader := by cases k <;> rfl
@[simp] theorem State.setSlot_line (s : State) (k : Slot) (r : SlotRec) : (s.setSlot k r).line = s.line := by cases k <;> rfl
@[simp] theorem State.setSlot_shifts (s : State) (k : Slot) (r : SlotRec) : (s.setSlot k r).shifts = s.shifts := by cases k <;> rfl
@[simp] theorem State.setSlot_impulse (s : State) (k : Slot) (r : SlotRec) : (s.setSlot k r).impulse = s.impulse := by cases k <;> rfl
@[simp] theorem State.setSlot_framer (s : State) (k : Slot) (r : SlotRec) : (s.setSlot k r).framer = s.framer := by cases k <;> rfl
@[simp] theorem State.setSlot_overhead (s : State) (k : Slot) (r : SlotRec) : (s.setSlot k r).overhead = s.overhead := by cases k <;> rfl
@[simp] theorem State.setSlot_handset (s : State) (k : Slot) (r : SlotRec) : (s.setSlot k r).handset = s.handset := by cases k <;> rfl
@[simp] theorem State.setSlot_data (s : State) (k : Slot) (r : SlotRec) : (s.setSlot k r).data = s.data := by cases k <;> rfl
@[simp] theorem State.setSlot_perf (s : State) (k : Slot) (r : SlotRec) : (s.setSlot k r).perf = s.perf := by cases k <;> rfl
@[simp] theorem State.setSlot_notices (s : State) (k : Slot) (r : SlotRec) : (s.setSlot k r).notices = s.notices := by cases k <;> rfl
@[simp] theorem State.setSlot_archive (s : State) (k : Slot) (r : SlotRec) : (s.setSlot k r).archive = s.archive := by cases k <;> rfl
@[simp] theorem State.setSlot_tester (s : State) (k : Slot) (r : SlotRec) : (s.setSlot k r).tester = s.tester := by cases k <;> rfl
@[simp] theorem State.setSlot_supply (s : State) (k : Slot) (r : SlotRec) : (s.setSlot k r).supply = s.supply := by cases k <;> rfl
@[simp] theorem State.setSlot_mgmt (s : State) (k : Slot) (r : SlotRec) : (s.setSlot k r).mgmt = s.mgmt := by cases k <;> rfl
@[simp] theorem State.setSlot_factory (s : State) (k : Slot) (r : SlotRec) : (s.setSlot k r).factory = s.factory := by cases k <;> rfl

@[simp] theorem State.setSlot_slot (s : State) (k : Slot) (r : SlotRec) : (s.setSlot k r).slot k = r := by cases k <;> rfl
@[simp] theorem State.setSlot_other (s : State) (k : Slot) (r : SlotRec) :
    (s.setSlot k r).slot (otherSlot k) = s.slot (otherSlot k) := by cases k <;> rfl
@[simp] theorem State.setSlot_port (s : State) (k : Slot) (r : SlotRec) (p : Port) : (s.setSlot k r).port p = s.port p := by
  cases p <;> cases k <;> rfl
@[simp] theorem State.setSlot_admissions (s : State) (k : Slot) (r : SlotRec) :
    (s.setSlot k r).slots.admissions = s.slots.admissions := by cases k <;> rfl
@[simp] theorem State.setSlot_newest (s : State) (k : Slot) (r : SlotRec) :
    (s.setSlot k r).slots.newest = s.slots.newest := by cases k <;> rfl
@[simp] theorem State.setSlot_setSlot (s : State) (k : Slot) (r x : SlotRec) : (s.setSlot k r).setSlot k x = s.setSlot k x := by
  cases k <;> rfl
@[simp] theorem State.setSlot_self (s : State) (k : Slot) : s.setSlot k (s.slot k) = s := by cases k <;> rfl

/-! ### `onPort` -/

@[simp] theorem onPort_pending (s : State) (p : Port) (f : PortRec → PortRec) : (onPort p f s).pending = s.pending := by cases p <;> rfl
@[simp] theorem onPort_powered (s : State) (p : Port) (f : PortRec → PortRec) : (onPort p f s).powered = s.powered := by cases p <;> rfl
@[simp] theorem onPort_time (s : State) (p : Port) (f : PortRec → PortRec) : (onPort p f s).time = s.time := by cases p <;> rfl
@[simp] theorem onPort_tones (s : State) (p : Port) (f : PortRec → PortRec) : (onPort p f s).tones = s.tones := by cases p <;> rfl
@[simp] theorem onPort_loader (s : State) (p : Port) (f : PortRec → PortRec) : (onPort p f s).loader = s.loader := by cases p <;> rfl
@[simp] theorem onPort_line (s : State) (p : Port) (f : PortRec → PortRec) : (onPort p f s).line = s.line := by cases p <;> rfl
@[simp] theorem onPort_shifts (s : State) (p : Port) (f : PortRec → PortRec) : (onPort p f s).shifts = s.shifts := by cases p <;> rfl
@[simp] theorem onPort_impulse (s : State) (p : Port) (f : PortRec → PortRec) : (onPort p f s).impulse = s.impulse := by cases p <;> rfl
@[simp] theorem onPort_framer (s : State) (p : Port) (f : PortRec → PortRec) : (onPort p f s).framer = s.framer := by cases p <;> rfl
@[simp] theorem onPort_overhead (s : State) (p : Port) (f : PortRec → PortRec) : (onPort p f s).overhead = s.overhead := by cases p <;> rfl
@[simp] theorem onPort_slots (s : State) (p : Port) (f : PortRec → PortRec) : (onPort p f s).slots = s.slots := by cases p <;> rfl
@[simp] theorem onPort_data (s : State) (p : Port) (f : PortRec → PortRec) : (onPort p f s).data = s.data := by cases p <;> rfl
@[simp] theorem onPort_perf (s : State) (p : Port) (f : PortRec → PortRec) : (onPort p f s).perf = s.perf := by cases p <;> rfl
@[simp] theorem onPort_notices (s : State) (p : Port) (f : PortRec → PortRec) : (onPort p f s).notices = s.notices := by cases p <;> rfl
@[simp] theorem onPort_archive (s : State) (p : Port) (f : PortRec → PortRec) : (onPort p f s).archive = s.archive := by cases p <;> rfl
@[simp] theorem onPort_tester (s : State) (p : Port) (f : PortRec → PortRec) : (onPort p f s).tester = s.tester := by cases p <;> rfl
@[simp] theorem onPort_supply (s : State) (p : Port) (f : PortRec → PortRec) : (onPort p f s).supply = s.supply := by cases p <;> rfl
@[simp] theorem onPort_mgmt (s : State) (p : Port) (f : PortRec → PortRec) : (onPort p f s).mgmt = s.mgmt := by cases p <;> rfl
@[simp] theorem onPort_factory (s : State) (p : Port) (f : PortRec → PortRec) : (onPort p f s).factory = s.factory := by cases p <;> rfl
@[simp] theorem onPort_port (s : State) (p : Port) (f : PortRec → PortRec) : (onPort p f s).port p = f (s.port p) := by cases p <;> rfl
@[simp] theorem onPort_other (s : State) (p : Port) (f : PortRec → PortRec) :
    (onPort p f s).port (otherPort p) = s.port (otherPort p) := by cases p <;> rfl

/-! ### `onSlot` -/

@[simp] theorem onSlot_pending (s : State) (p : Slot) (f : SlotRec → SlotRec) : (onSlot p f s).pending = s.pending := by cases p <;> rfl
@[simp] theorem onSlot_powered (s : State) (p : Slot) (f : SlotRec → SlotRec) : (onSlot p f s).powered = s.powered := by cases p <;> rfl
@[simp] theorem onSlot_time (s : State) (p : Slot) (f : SlotRec → SlotRec) : (onSlot p f s).time = s.time := by cases p <;> rfl
@[simp] theorem onSlot_tones (s : State) (p : Slot) (f : SlotRec → SlotRec) : (onSlot p f s).tones = s.tones := by cases p <;> rfl
@[simp] theorem onSlot_loader (s : State) (p : Slot) (f : SlotRec → SlotRec) : (onSlot p f s).loader = s.loader := by cases p <;> rfl
@[simp] theorem onSlot_line (s : State) (p : Slot) (f : SlotRec → SlotRec) : (onSlot p f s).line = s.line := by cases p <;> rfl
@[simp] theorem onSlot_shifts (s : State) (p : Slot) (f : SlotRec → SlotRec) : (onSlot p f s).shifts = s.shifts := by cases p <;> rfl
@[simp] theorem onSlot_impulse (s : State) (p : Slot) (f : SlotRec → SlotRec) : (onSlot p f s).impulse = s.impulse := by cases p <;> rfl
@[simp] theorem onSlot_framer (s : State) (p : Slot) (f : SlotRec → SlotRec) : (onSlot p f s).framer = s.framer := by cases p <;> rfl
@[simp] theorem onSlot_overhead (s : State) (p : Slot) (f : SlotRec → SlotRec) : (onSlot p f s).overhead = s.overhead := by cases p <;> rfl
@[simp] theorem onSlot_handset (s : State) (p : Slot) (f : SlotRec → SlotRec) : (onSlot p f s).handset = s.handset := by cases p <;> rfl
@[simp] theorem onSlot_data (s : State) (p : Slot) (f : SlotRec → SlotRec) : (onSlot p f s).data = s.data := by cases p <;> rfl
@[simp] theorem onSlot_perf (s : State) (p : Slot) (f : SlotRec → SlotRec) : (onSlot p f s).perf = s.perf := by cases p <;> rfl
@[simp] theorem onSlot_notices (s : State) (p : Slot) (f : SlotRec → SlotRec) : (onSlot p f s).notices = s.notices := by cases p <;> rfl
@[simp] theorem onSlot_archive (s : State) (p : Slot) (f : SlotRec → SlotRec) : (onSlot p f s).archive = s.archive := by cases p <;> rfl
@[simp] theorem onSlot_tester (s : State) (p : Slot) (f : SlotRec → SlotRec) : (onSlot p f s).tester = s.tester := by cases p <;> rfl
@[simp] theorem onSlot_supply (s : State) (p : Slot) (f : SlotRec → SlotRec) : (onSlot p f s).supply = s.supply := by cases p <;> rfl
@[simp] theorem onSlot_mgmt (s : State) (p : Slot) (f : SlotRec → SlotRec) : (onSlot p f s).mgmt = s.mgmt := by cases p <;> rfl
@[simp] theorem onSlot_factory (s : State) (p : Slot) (f : SlotRec → SlotRec) : (onSlot p f s).factory = s.factory := by cases p <;> rfl
@[simp] theorem onSlot_slot (s : State) (p : Slot) (f : SlotRec → SlotRec) : (onSlot p f s).slot p = f (s.slot p) := by cases p <;> rfl
@[simp] theorem onSlot_other (s : State) (p : Slot) (f : SlotRec → SlotRec) :
    (onSlot p f s).slot (otherSlot p) = s.slot (otherSlot p) := by cases p <;> rfl

/-! ### The Tone Store -/

@[simp] theorem Tones.setBank_bank (t : Tones) (d : Dir) (k : BankId) (l : List ToneRec) : (t.setBank d k l).bank d k = l := by
  cases d <;> cases k <;> rfl
@[simp] theorem Tones.setBank_other (t : Tones) (d : Dir) (k : BankId) (l : List ToneRec) :
    (t.setBank d k l).bank d (otherBank k) = t.bank d (otherBank k) := by cases d <;> cases k <;> rfl
@[simp] theorem Tones.setBank_activeId (t : Tones) (d e : Dir) (k : BankId) (l : List ToneRec) :
    (t.setBank d k l).activeId e = t.activeId e := by cases d <;> cases e <;> cases k <;> rfl
@[simp] theorem Tones.setBank_rxActive (t : Tones) (d : Dir) (k : BankId) (l : List ToneRec) : (t.setBank d k l).rxActive = t.rxActive := by
  cases d <;> cases k <;> rfl
@[simp] theorem Tones.setBank_txActive (t : Tones) (d : Dir) (k : BankId) (l : List ToneRec) : (t.setBank d k l).txActive = t.txActive := by
  cases d <;> cases k <;> rfl
@[simp] theorem Tones.setBank_rxSet (t : Tones) (d : Dir) (k : BankId) (l : List ToneRec) : (t.setBank d k l).rxSet = t.rxSet := by
  cases d <;> cases k <;> rfl
@[simp] theorem Tones.setBank_txSet (t : Tones) (d : Dir) (k : BankId) (l : List ToneRec) : (t.setBank d k l).txSet = t.txSet := by
  cases d <;> cases k <;> rfl
@[simp] theorem Tones.setBank_meas (t : Tones) (d : Dir) (k : BankId) (l : List ToneRec) : (t.setBank d k l).meas = t.meas := by
  cases d <;> cases k <;> rfl
@[simp] theorem Tones.setBank_thresholds (t : Tones) (d : Dir) (k : BankId) (l : List ToneRec) : (t.setBank d k l).thresholds = t.thresholds := by
  cases d <;> cases k <;> rfl
@[simp] theorem Tones.setBank_margins (t : Tones) (d : Dir) (k : BankId) (l : List ToneRec) : (t.setBank d k l).margins = t.margins := by
  cases d <;> cases k <;> rfl
@[simp] theorem Tones.setBank_credit (t : Tones) (d : Dir) (k : BankId) (l : List ToneRec) : (t.setBank d k l).credit = t.credit := by
  cases d <;> cases k <;> rfl
@[simp] theorem Tones.setBank_holdCeiling (t : Tones) (d : Dir) (k : BankId) (l : List ToneRec) : (t.setBank d k l).holdCeiling = t.holdCeiling := by
  cases d <;> cases k <;> rfl
@[simp] theorem Tones.setBank_lineMargin (t : Tones) (d : Dir) (k : BankId) (l : List ToneRec) : (t.setBank d k l).lineMargin = t.lineMargin := by
  cases d <;> cases k <;> rfl
@[simp] theorem Tones.setBank_goodSymbols (t : Tones) (d : Dir) (k : BankId) (l : List ToneRec) : (t.setBank d k l).goodSymbols = t.goodSymbols := by
  cases d <;> cases k <;> rfl
@[simp] theorem Tones.setActive_rxA (t : Tones) (d : Dir) (k : BankId) : (t.setActive d k).rxA = t.rxA := by cases d <;> rfl
@[simp] theorem Tones.setActive_rxB (t : Tones) (d : Dir) (k : BankId) : (t.setActive d k).rxB = t.rxB := by cases d <;> rfl
@[simp] theorem Tones.setActive_txA (t : Tones) (d : Dir) (k : BankId) : (t.setActive d k).txA = t.txA := by cases d <;> rfl
@[simp] theorem Tones.setActive_txB (t : Tones) (d : Dir) (k : BankId) : (t.setActive d k).txB = t.txB := by cases d <;> rfl
@[simp] theorem Tones.setActive_rxSet (t : Tones) (d : Dir) (k : BankId) : (t.setActive d k).rxSet = t.rxSet := by cases d <;> rfl
@[simp] theorem Tones.setActive_txSet (t : Tones) (d : Dir) (k : BankId) : (t.setActive d k).txSet = t.txSet := by cases d <;> rfl
@[simp] theorem Tones.setActive_meas (t : Tones) (d : Dir) (k : BankId) : (t.setActive d k).meas = t.meas := by cases d <;> rfl
@[simp] theorem Tones.setActive_thresholds (t : Tones) (d : Dir) (k : BankId) : (t.setActive d k).thresholds = t.thresholds := by cases d <;> rfl
@[simp] theorem Tones.setActive_margins (t : Tones) (d : Dir) (k : BankId) : (t.setActive d k).margins = t.margins := by cases d <;> rfl
@[simp] theorem Tones.setActive_credit (t : Tones) (d : Dir) (k : BankId) : (t.setActive d k).credit = t.credit := by cases d <;> rfl
@[simp] theorem Tones.setActive_holdCeiling (t : Tones) (d : Dir) (k : BankId) : (t.setActive d k).holdCeiling = t.holdCeiling := by cases d <;> rfl
@[simp] theorem Tones.setActive_lineMargin (t : Tones) (d : Dir) (k : BankId) : (t.setActive d k).lineMargin = t.lineMargin := by cases d <;> rfl
@[simp] theorem Tones.setActive_goodSymbols (t : Tones) (d : Dir) (k : BankId) : (t.setActive d k).goodSymbols = t.goodSymbols := by cases d <;> rfl
@[simp] theorem Tones.setActive_activeId (t : Tones) (d : Dir) (k : BankId) : (t.setActive d k).activeId d = k := by cases d <;> rfl
@[simp] theorem Tones.setActive_bank (t : Tones) (d e : Dir) (k j : BankId) : (t.setActive d k).bank e j = t.bank e j := by
  cases d <;> cases e <;> cases j <;> rfl
@[simp] theorem Tones.setSettings_rxA (t : Tones) (d : Dir) (l : List ToneSetting) : (t.setSettings d l).rxA = t.rxA := by
  cases d <;> rfl
@[simp] theorem Tones.setSettings_rxB (t : Tones) (d : Dir) (l : List ToneSetting) : (t.setSettings d l).rxB = t.rxB := by
  cases d <;> rfl
@[simp] theorem Tones.setSettings_txA (t : Tones) (d : Dir) (l : List ToneSetting) : (t.setSettings d l).txA = t.txA := by
  cases d <;> rfl
@[simp] theorem Tones.setSettings_txB (t : Tones) (d : Dir) (l : List ToneSetting) : (t.setSettings d l).txB = t.txB := by
  cases d <;> rfl
@[simp] theorem Tones.setSettings_rxActive (t : Tones) (d : Dir) (l : List ToneSetting) : (t.setSettings d l).rxActive = t.rxActive := by
  cases d <;> rfl
@[simp] theorem Tones.setSettings_txActive (t : Tones) (d : Dir) (l : List ToneSetting) : (t.setSettings d l).txActive = t.txActive := by
  cases d <;> rfl
@[simp] theorem Tones.setSettings_meas (t : Tones) (d : Dir) (l : List ToneSetting) : (t.setSettings d l).meas = t.meas := by
  cases d <;> rfl
@[simp] theorem Tones.setSettings_thresholds (t : Tones) (d : Dir) (l : List ToneSetting) : (t.setSettings d l).thresholds = t.thresholds := by
  cases d <;> rfl
@[simp] theorem Tones.setSettings_margins (t : Tones) (d : Dir) (l : List ToneSetting) : (t.setSettings d l).margins = t.margins := by
  cases d <;> rfl
@[simp] theorem Tones.setSettings_credit (t : Tones) (d : Dir) (l : List ToneSetting) : (t.setSettings d l).credit = t.credit := by
  cases d <;> rfl
@[simp] theorem Tones.setSettings_holdCeiling (t : Tones) (d : Dir) (l : List ToneSetting) : (t.setSettings d l).holdCeiling = t.holdCeiling := by
  cases d <;> rfl
@[simp] theorem Tones.setSettings_lineMargin (t : Tones) (d : Dir) (l : List ToneSetting) : (t.setSettings d l).lineMargin = t.lineMargin := by
  cases d <;> rfl
@[simp] theorem Tones.setSettings_goodSymbols (t : Tones) (d : Dir) (l : List ToneSetting) : (t.setSettings d l).goodSymbols = t.goodSymbols := by
  cases d <;> rfl
@[simp] theorem Tones.setSettings_settings (t : Tones) (d : Dir) (l : List ToneSetting) : (t.setSettings d l).settings d = l := by
  cases d <;> rfl
@[simp] theorem otherBank_otherBank (k : BankId) : otherBank (otherBank k) = k := by cases k <;> rfl
@[simp] theorem otherPort_otherPort (p : Port) : otherPort (otherPort p) = p := by cases p <;> rfl
@[simp] theorem otherSlot_otherSlot (k : Slot) : otherSlot (otherSlot k) = k := by cases k <;> rfl

/-! ### The archive -/

@[simp] theorem Archive.setBlock_pointer (a : Archive) (i : Nat) (f : FlashBlock → FlashBlock) : (a.setBlock i f).pointer = a.pointer := rfl
@[simp] theorem Archive.setBlock_sequence (a : Archive) (i : Nat) (f : FlashBlock → FlashBlock) : (a.setBlock i f).sequence = a.sequence := rfl
@[simp] theorem Archive.setBlock_blockSequence (a : Archive) (i : Nat) (f : FlashBlock → FlashBlock) : (a.setBlock i f).blockSequence = a.blockSequence := rfl
@[simp] theorem Archive.setBlock_powerOns (a : Archive) (i : Nat) (f : FlashBlock → FlashBlock) : (a.setBlock i f).powerOns = a.powerOns := rfl
@[simp] theorem Archive.setBlock_missed (a : Archive) (i : Nat) (f : FlashBlock → FlashBlock) : (a.setBlock i f).missed = a.missed := rfl
@[simp] theorem Archive.setBlock_pendingList (a : Archive) (i : Nat) (f : FlashBlock → FlashBlock) : (a.setBlock i f).pendingList = a.pendingList := rfl
@[simp] theorem Archive.setBlock_state (a : Archive) (i : Nat) (f : FlashBlock → FlashBlock) : (a.setBlock i f).state = a.state := rfl
@[simp] theorem Archive.setBlock_program (a : Archive) (i : Nat) (f : FlashBlock → FlashBlock) : (a.setBlock i f).program = a.program := rfl
@[simp] theorem Archive.setBlock_erase (a : Archive) (i : Nat) (f : FlashBlock → FlashBlock) : (a.setBlock i f).erase = a.erase := rfl
@[simp] theorem Archive.setBlock_programFailed (a : Archive) (i : Nat) (f : FlashBlock → FlashBlock) : (a.setBlock i f).programFailed = a.programFailed := rfl
@[simp] theorem Archive.setBlock_eraseFailed (a : Archive) (i : Nat) (f : FlashBlock → FlashBlock) : (a.setBlock i f).eraseFailed = a.eraseFailed := rfl
@[simp] theorem Archive.setBlock_mode (a : Archive) (i : Nat) (f : FlashBlock → FlashBlock) : (a.setBlock i f).mode = a.mode := rfl
@[simp] theorem Archive.setBlock_fullReported (a : Archive) (i : Nat) (f : FlashBlock → FlashBlock) : (a.setBlock i f).fullReported = a.fullReported := rfl
@[simp] theorem Archive.setBlock_table (a : Archive) (i : Nat) (f : FlashBlock → FlashBlock) : (a.setBlock i f).table = a.table := rfl
@[simp] theorem Archive.setEntry_pointer (a : Archive) (i : Nat) (f : BlockEntry → BlockEntry) : (a.setEntry i f).pointer = a.pointer := rfl
@[simp] theorem Archive.setEntry_sequence (a : Archive) (i : Nat) (f : BlockEntry → BlockEntry) : (a.setEntry i f).sequence = a.sequence := rfl
@[simp] theorem Archive.setEntry_blockSequence (a : Archive) (i : Nat) (f : BlockEntry → BlockEntry) : (a.setEntry i f).blockSequence = a.blockSequence := rfl
@[simp] theorem Archive.setEntry_powerOns (a : Archive) (i : Nat) (f : BlockEntry → BlockEntry) : (a.setEntry i f).powerOns = a.powerOns := rfl
@[simp] theorem Archive.setEntry_missed (a : Archive) (i : Nat) (f : BlockEntry → BlockEntry) : (a.setEntry i f).missed = a.missed := rfl
@[simp] theorem Archive.setEntry_pendingList (a : Archive) (i : Nat) (f : BlockEntry → BlockEntry) : (a.setEntry i f).pendingList = a.pendingList := rfl
@[simp] theorem Archive.setEntry_state (a : Archive) (i : Nat) (f : BlockEntry → BlockEntry) : (a.setEntry i f).state = a.state := rfl
@[simp] theorem Archive.setEntry_program (a : Archive) (i : Nat) (f : BlockEntry → BlockEntry) : (a.setEntry i f).program = a.program := rfl
@[simp] theorem Archive.setEntry_erase (a : Archive) (i : Nat) (f : BlockEntry → BlockEntry) : (a.setEntry i f).erase = a.erase := rfl
@[simp] theorem Archive.setEntry_programFailed (a : Archive) (i : Nat) (f : BlockEntry → BlockEntry) : (a.setEntry i f).programFailed = a.programFailed := rfl
@[simp] theorem Archive.setEntry_eraseFailed (a : Archive) (i : Nat) (f : BlockEntry → BlockEntry) : (a.setEntry i f).eraseFailed = a.eraseFailed := rfl
@[simp] theorem Archive.setEntry_mode (a : Archive) (i : Nat) (f : BlockEntry → BlockEntry) : (a.setEntry i f).mode = a.mode := rfl
@[simp] theorem Archive.setEntry_fullReported (a : Archive) (i : Nat) (f : BlockEntry → BlockEntry) : (a.setEntry i f).fullReported = a.fullReported := rfl
@[simp] theorem Archive.setEntry_flash (a : Archive) (i : Nat) (f : BlockEntry → BlockEntry) : (a.setEntry i f).flash = a.flash := rfl
@[simp] theorem Archive.miss_pointer (a : Archive) : a.miss.pointer = a.pointer := rfl
@[simp] theorem Archive.miss_sequence (a : Archive) : a.miss.sequence = a.sequence := rfl
@[simp] theorem Archive.miss_blockSequence (a : Archive) : a.miss.blockSequence = a.blockSequence := rfl
@[simp] theorem Archive.miss_powerOns (a : Archive) : a.miss.powerOns = a.powerOns := rfl
@[simp] theorem Archive.miss_pendingList (a : Archive) : a.miss.pendingList = a.pendingList := rfl
@[simp] theorem Archive.miss_state (a : Archive) : a.miss.state = a.state := rfl
@[simp] theorem Archive.miss_program (a : Archive) : a.miss.program = a.program := rfl
@[simp] theorem Archive.miss_erase (a : Archive) : a.miss.erase = a.erase := rfl
@[simp] theorem Archive.miss_programFailed (a : Archive) : a.miss.programFailed = a.programFailed := rfl
@[simp] theorem Archive.miss_eraseFailed (a : Archive) : a.miss.eraseFailed = a.eraseFailed := rfl
@[simp] theorem Archive.miss_mode (a : Archive) : a.miss.mode = a.mode := rfl
@[simp] theorem Archive.miss_fullReported (a : Archive) : a.miss.fullReported = a.fullReported := rfl
@[simp] theorem Archive.miss_flash (a : Archive) : a.miss.flash = a.flash := rfl
@[simp] theorem Archive.miss_table (a : Archive) : a.miss.table = a.table := rfl

/-! ### Outcomes -/

@[simp] theorem run_powered (f : State → State) (s : State) (h : s.powered = true) : run f s = .next (f s) := by simp [run, h]
@[simp] theorem run_unpowered (f : State → State) (s : State) (h : s.powered = false) : run f s = .next s := by simp [run, h]
@[simp] theorem whenDue_true (f : State → State) (s : State) : whenDue true f s = f s := rfl
@[simp] theorem whenDue_false (f : State → State) (s : State) : whenDue false f s = s := rfl

end Sys2Proof.Machine
end

