-- ==== Sys2Proof/Laws/Ops.lean ====
section
/-! SUPPORT. What each shared operation can change, said once: the state it gives is the state it took with the named blocks
replaced. -/
namespace Sys2Proof.Machine

/-! ## Notices and counts -/

theorem copyToArchive_frame (cls : NoticeClass) (sev : Severity) (code : NoticeCode) (ps : List Int) (s : State) :
    ∃ a, copyToArchive cls sev code ps s = { s with archive := a } := by
  unfold copyToArchive
  split
  · exact ⟨_, rfl⟩
  · exact ⟨s.archive, rfl⟩

/-- What `Archive.pick` can answer: a record of the list that satisfies `ok` and is offered a slot, no earlier one being
both, and the list without it. -/
theorem Archive.pick_some (a : Archive) (ok : ArchCopy → Bool) (l : List ArchCopy) {c : ArchCopy} {b k : Nat}
    {rest : List ArchCopy} (h : a.pick ok l = some (c, b, k, rest)) :
    ∃ before after, l = before ++ c :: after ∧ rest = before ++ after ∧ ok c = true ∧ a.offers c.severity = some (b, k) ∧
      ∀ x ∈ before, ok x = true → a.offers x.severity = none := by
  induction l generalizing c b k rest with
  | nil => cases h
  | cons x l ih =>
    unfold Archive.pick at h
    split at h
    · rename_i b' k' hx
      cases h
      by_cases hok : ok x <;> simp [hok] at hx
      exact ⟨[], l, rfl, rfl, hok, hx, by simp⟩
    · rename_i hx
      cases hp : a.pick ok l with
      | none => simp [hp] at h
      | some q =>
        obtain ⟨c', b', k', r⟩ := q
        simp only [hp, Option.map_some, Option.some.injEq, Prod.mk.injEq] at h
        obtain ⟨rfl, rfl, rfl, rfl⟩ := h
        obtain ⟨before, after, rfl, rfl, h1, h2, h3⟩ := ih hp
        refine ⟨x :: before, after, rfl, rfl, h1, h2, ?_⟩
        intro y hy hok
        rcases List.mem_cons.mp hy with rfl | hy
        · simpa [hok] using hx
        · exact h3 y hy hok

/-- What serving the pending list can do (R156, R161): nothing, or the program of one record of the list begins, in the slot it is
offered. It is the first of those that could go; while an erase runs, only a CRITICAL one could. -/
theorem Archive.serve_cases (a : Archive) :
    a.serve = a ∨
      ∃ before c after b k, a.pendingList = before ++ c :: after ∧ a.offers c.severity = some (b, k) ∧
        a.serve = ({ a with pendingList := before ++ after } : Archive).begin c b k ∧ a.sequence ≠ sequenceTop ∧
        (a.state = .ready ∨ (a.state = .erasing ∧ c.severity = .critical)) ∧
        (∀ x ∈ before, (a.state = .ready ∨ x.severity = .critical) → a.offers x.severity = none) := by
  obtain ⟨_, _, _, _, _, _, _, _, state, _, _, _, _, _, _⟩ := a
  cases state <;> try exact .inl rfl
  all_goals
    simp only [Archive.serve]
    split
    · exact .inl rfl
    · rename_i hq
      split
      · rename_i c b k rest hn
        obtain ⟨before, after, h1, rfl, h3, h4, h5⟩ := Archive.pick_some _ _ _ hn
        exact .inr ⟨before, c, after, b, k, h1, h4, rfl, hq, by first | (simp; done) | simp [eq_of_beq h3], by simpa using h5⟩
      · exact .inl rfl

theorem placeNotice_frame (cls : NoticeClass) (sev : Severity) (code : NoticeCode) (ps : List Int) (h o : Bool) (s : State) :
    ∃ n, placeNotice cls sev code ps h o s = { s with notices := n } := by
  unfold placeNotice
  dsimp only
  split
  · exact ⟨_, rfl⟩
  · exact ⟨_, rfl⟩

/-- Raising a notice changes the archive and the Notice Unit. -/
theorem raise_frame (cls : NoticeClass) (sev : Severity) (code : NoticeCode) (ps : List Int) (s : State) :
    ∃ a n, raise cls sev code ps s = { s with archive := a, notices := n } := by
  obtain ⟨a, ha⟩ := copyToArchive_frame cls sev code ps s
  unfold raise
  rw [ha]
  dsimp only
  split
  · obtain ⟨n, hn⟩ := placeNotice_frame cls sev code ps _ _ { s with archive := a }
    exact ⟨a, n, hn⟩
  · exact ⟨a, s.notices, rfl⟩

/-- A search that ends at a held number has found every number it tried held. -/
theorem freeSequence_tried (held : List Nat) (fuel v : Nat) (hv : v < 65536) (h : freeSequence held fuel v ∈ held) :
    ∀ i ≤ fuel, (v + i) % 65536 ∈ held := by
  induction fuel generalizing v with
  | zero =>
    intro i hi
    obtain rfl : i = 0 := by omega
    simpa [Nat.mod_eq_of_lt hv, freeSequence] using h
  | succ fuel ih =>
    unfold freeSequence at h
    split at h
    · rename_i hm
      intro i hi
      cases i with
      | zero => simpa [Nat.mod_eq_of_lt hv] using hm
      | succ i =>
        have := ih _ (Nat.mod_lt _ (by decide)) h i (by omega)
        rwa [show (v + (i + 1)) % 65536 = ((v + 1) % 65536 + i) % 65536 by omega]
    · rename_i hm
      exact absurd h hm

/-- The number taken for a placed notice is held by no other, while fewer than 65536 are held (R141). -/
theorem freeSequence_not_mem (held : List Nat) (v : Nat) (hv : v < 65536) (hl : held.length < 65536) :
    freeSequence held (held.length + 1) v ∉ held := by
  intro h
  have tried := freeSequence_tried held _ v hv h
  have nodup : ((List.range (held.length + 1)).map fun i => (v + i) % 65536).Nodup := by
    refine List.Nodup.map_on ?_ List.nodup_range
    intro i hi j hj hij
    rw [List.mem_range] at hi hj
    omega
  have := (nodup.subperm fun x hx => by
    obtain ⟨i, hi, rfl⟩ := List.mem_map.mp hx
    exact tried i (by rw [List.mem_range] at hi; omega)).length_le
  simp at this

/-- No more numbers are held than there are notices queued, messages of the overhead queue and frames of the buffer. -/
theorem heldSequences_length (s : State) :
    s.heldSequences.length ≤ s.notices.queue.length + s.overhead.queue.length + s.data.buffer.length := by
  simp only [State.heldSequences, List.length_append, List.length_map]
  exact Nat.add_le_add (Nat.add_le_add_left (List.length_filterMap_le _ _) _) (List.length_filterMap_le _ _)

/-- A notice raised with room in the queue joins its newest end or is not placed; its sequence number is held by no notice of
the queue, the overhead transmit queue or the home delivery buffer (R141, R143). -/
theorem raise_room (cls : NoticeClass) (sev : Severity) (code : NoticeCode) (ps : List Int) (s : State)
    (hq : s.notices.queue.length < 24) (hv : s.notices.nextSequence < 65536) (hl : s.heldSequences.length < 65536) :
    ∃ l, (raise cls sev code ps s).notices.queue = s.notices.queue ++ l ∧ l.length ≤ 1 ∧
      (∀ e ∈ l, e.notice.sequence ∉ s.heldSequences) ∧
      (raise cls sev code ps s).notices.nextSequence < 65536 ∧
      (raise cls sev code ps s).notices.homeEnable = s.notices.homeEnable := by
  obtain ⟨a, ha⟩ := copyToArchive_frame cls sev code ps s
  unfold raise
  rw [ha]
  dsimp only
  split
  · unfold placeNotice
    rw [show Notices.makeRoom s.notices sev = (s.notices, true) by simp [Notices.makeRoom, hq]]
    exact ⟨[_], rfl, Nat.le_refl _, fun e he => by
      rw [List.mem_singleton.mp he]
      exact freeSequence_not_mem _ _ hv hl, Nat.mod_lt _ (by decide), rfl⟩
  · exact ⟨[], by simp, by simp, by simp, hv, rfl⟩

/-- A notice that comes back changes the Notice Unit. -/
theorem returnNotice_frame (o : Outlet) (x : Notice) (s : State) : ∃ n, returnNotice o x s = { s with notices := n } := by
  unfold returnNotice
  dsimp only
  split
  · exact ⟨s.notices, rfl⟩
  · split
    · exact ⟨_, rfl⟩
    · split
      · exact ⟨_, rfl⟩
      · exact ⟨_, rfl⟩

/-- A count changes the Performance Monitor, and, by THRESHOLD, the archive and the Notice Unit. -/
theorem count_frame (c : Counter) (s : State) :
    ∃ p a n, count c s = { s with perf := p, archive := a, notices := n } := by
  unfold count
  dsimp only
  split
  · split
    · obtain ⟨a, n, h⟩ := raise_frame .counter (if c = .ses ∨ c = .retrains then .major else .minor) .threshold
        [(c.index : Int) + 1, (s.perf.thresholds.getD c.index 0 : Int), (s.perf.number : Int)]
        { s with perf := { s.perf with
            counters := s.perf.counters.set c.index (s.perf.counters.getD c.index 0 + 1)
            crossings := s.perf.crossings.set c.index true } }
      exact ⟨_, a, n, h⟩
    · exact ⟨_, s.archive, s.notices, rfl⟩
  · exact ⟨s.perf, s.archive, s.notices, rfl⟩

/-- A count with room in the notice queue places at most one notice, with a sequence number that no notice holds (R138, R141). -/
theorem count_room (c : Counter) (s : State) (hq : s.notices.queue.length < 24) (hv : s.notices.nextSequence < 65536)
    (hl : s.heldSequences.length < 65536) :
    ∃ l, (count c s).notices.queue = s.notices.queue ++ l ∧ l.length ≤ 1 ∧
      (∀ e ∈ l, e.notice.sequence ∉ s.heldSequences) ∧ (count c s).notices.nextSequence < 65536 ∧
      (count c s).notices.homeEnable = s.notices.homeEnable := by
  unfold count
  dsimp only
  split
  · split
    · exact raise_room _ _ _ _ _ hq hv hl
    · exact ⟨[], by simp, by simp, by simp, hv, rfl⟩
  · exact ⟨[], by simp, by simp, by simp, hv, rfl⟩
theorem countMany_frame (c : Counter) (k : Nat) (s : State) :
    ∃ p a n, countMany c k s = { s with perf := p, archive := a, notices := n } := by
  induction k generalizing s with
  | zero => exact ⟨s.perf, s.archive, s.notices, rfl⟩
  | succ k ih =>
    obtain ⟨p, a, n, h⟩ := count_frame c s
    obtain ⟨p', a', n', h'⟩ := ih (count c s)
    exact ⟨p', a', n', by rw [countMany, h', h]⟩

/-! ## The overhead channel -/

theorem giveBack_frame (m : Msg) (s : State) : ∃ n g, giveBack m s = { s with notices := n, mgmt := g } := by
  unfold giveBack
  split
  · obtain ⟨n, h⟩ := returnNotice_frame .overhead _ s
    exact ⟨n, s.mgmt, h⟩
  · exact ⟨s.notices, _, rfl⟩
  · exact ⟨s.notices, s.mgmt, rfl⟩

theorem waitOutside_frame (m : Msg) (s : State) : ∃ o, waitOutside m s = { s with overhead := o } := by
  unfold waitOutside
  split <;> exact ⟨_, rfl⟩

/-- An offered message changes the overhead channel, and, by an eviction, its owner's queue. -/
theorem offer_frame (m : Msg) (s : State) :
    ∃ o n g, offer m s = { s with overhead := o, notices := n, mgmt := g } := by
  unfold offer
  split
  · exact ⟨s.overhead, s.notices, s.mgmt, rfl⟩
  · split
    · obtain ⟨o, h⟩ := waitOutside_frame m s
      exact ⟨o, s.notices, s.mgmt, h⟩
    · split
      · exact ⟨_, s.notices, s.mgmt, rfl⟩
      · split
        · rename_i q _
          obtain ⟨n, g, h⟩ := giveBack_frame q.msg
            { s with overhead := insertMsg m { s.overhead with queue := s.overhead.queue.erase q } }
          exact ⟨_, n, g, h⟩
        · obtain ⟨o, h⟩ := waitOutside_frame m s
          exact ⟨o, s.notices, s.mgmt, h⟩

/-- The least place of a class, from the first place counted from, is at most that of every entry of the class. -/
theorem foldl_least (cls : MsgClass) (l : List QueuedMsg) (p : Int) :
    let least := l.foldl (fun p q => if q.msg.cls = cls ∧ q.place < p then q.place else p) p
    least ≤ p ∧ ∀ q ∈ l, q.msg.cls = cls → least ≤ q.place := by
  induction l generalizing p with
  | nil => simp
  | cons a l ih =>
    simp only [List.foldl_cons, List.forall_mem_cons]
    by_cases h : a.msg.cls = cls ∧ a.place < p
    · rw [if_pos h]
      exact ⟨by have := (ih a.place).1; omega, fun _ => (ih a.place).1, (ih a.place).2⟩
    · rw [if_neg h]
      refine ⟨(ih p).1, fun hc => ?_, (ih p).2⟩
      have := (ih p).1
      have : ¬ a.place < p := fun hp => h ⟨hc, hp⟩
      omega

/-- A message put at the head of the highest class is the one the arbiter takes next (R13, R185). -/
theorem arbiterChoice_enqueueFirst (m : Msg) (o : Overhead) (h : m.cls = .lineControl) :
    ∃ q : QueuedMsg, q.msg = m ∧ enqueueFirst m o = { o with queue := q :: o.queue } ∧
      arbiterChoice (enqueueFirst m o).queue = some q := by
  refine ⟨_, rfl, rfl, ?_⟩
  obtain ⟨-, hp⟩ := foldl_least m.cls o.queue o.nextPlace
  simp only [enqueueFirst, arbiterChoice, List.foldl_cons]
  revert hp
  generalize o.queue.foldl (fun p q => if q.msg.cls = m.cls ∧ q.place < p then q.place else p) o.nextPlace = least
  generalize o.queue = l
  intro hp
  induction l with
  | nil => rfl
  | cons a l ih =>
    obtain ⟨ha, hl⟩ := List.forall_mem_cons.mp hp
    rw [List.foldl_cons]
    refine Eq.trans ?_ (ih hl)
    congr 1
    refine if_neg ?_
    rintro (hr | ⟨hr, hpl⟩)
    · simp [h, MsgClass.rank] at hr
    · have : a.msg.cls = m.cls := by
        rw [h] at hr ⊢
        cases hc : a.msg.cls <;> simp_all [MsgClass.rank]
      have := ha this
      simp at hpl
      omega
/-- An offer with room, and nothing waiting, joins the queue where its class has it go (`insertMsg`) and changes nothing else. -/
theorem offer_room (m : Msg) (s : State) (hl : s.line.state = .service) (hr : s.overhead.queue.length < 16)
    (h1 : s.overhead.waitingLine = []) (h2 : s.overhead.waitingSignal = []) :
    offer m s = { s with overhead := insertMsg m s.overhead } := by
  simp [offer, hl, noneWaiting, h1, h2, overheadRoom, hr]

/-- Outside SERVICE an offered message is refused (R13). -/
theorem offer_outside (m : Msg) (s : State) (h : s.line.state ≠ .service) : offer m s = s := by simp [offer, h]

theorem withdraw_frame (p : Msg → Bool) (s : State) : ∃ o, withdraw p s = { s with overhead := o } := ⟨_, rfl⟩

theorem takeResponse_frame (s t : State) (h : takeResponse s = some t) :
    ∃ o g, t = { s with overhead := o, mgmt := g } := by
  unfold takeResponse at h
  split at h
  · split at h
    · exact ⟨_, _, (Option.some.inj h).symm⟩
    · cases h
  · cases h

theorem takeNotice_frame (s t : State) (h : takeNotice s = some t) :
    ∃ o n, t = { s with overhead := o, notices := n } := by
  unfold takeNotice at h
  split at h
  · split at h
    · exact ⟨_, _, (Option.some.inj h).symm⟩
    · cases h
  · cases h

theorem fillOne_frame (s t : State) (h : fillOne s = some t) :
    ∃ o n g, t = { s with overhead := o, notices := n, mgmt := g } := by
  unfold fillOne at h
  split at h
  · cases h
  · split at h
    · exact ⟨_, s.notices, s.mgmt, (Option.some.inj h).symm⟩
    · exact ⟨_, s.notices, s.mgmt, (Option.some.inj h).symm⟩
    · split at h
      · rename_i u hu
        obtain ⟨o, g, e⟩ := takeResponse_frame s u hu
        exact ⟨o, s.notices, g, (Option.some.inj h).symm.trans e⟩
      · obtain ⟨o, n, e⟩ := takeNotice_frame s t h
        exact ⟨o, n, s.mgmt, e⟩

/-- Filling the rooms changes the overhead channel and the owners of what is taken. -/
theorem fillRooms_frame (k : Nat) (s : State) :
    ∃ o n g, fillRooms k s = { s with overhead := o, notices := n, mgmt := g } := by
  induction k generalizing s with
  | zero => exact ⟨s.overhead, s.notices, s.mgmt, rfl⟩
  | succ k ih =>
    unfold fillRooms
    split
    · rename_i t ht
      obtain ⟨o, n, g, e⟩ := fillOne_frame s t ht
      obtain ⟨o', n', g', e'⟩ := ih t
      exact ⟨o', n', g', by rw [e', e]⟩
    · exact ⟨s.overhead, s.notices, s.mgmt, rfl⟩

theorem arbitrate_frame (s : State) : ∃ o, arbitrate s = { s with overhead := o } := by
  unfold arbitrate
  split
  · exact ⟨s.overhead, rfl⟩
  · split
    · exact ⟨_, rfl⟩
    · exact ⟨s.overhead, rfl⟩

theorem stopOverhead_frame (s : State) :
    ∃ o n g, stopOverhead s = { s with overhead := o, notices := n, mgmt := g } := by
  unfold stopOverhead
  dsimp only
  split
  · rename_i x _
    split
    · split
      · exact ⟨_, s.notices, s.mgmt, rfl⟩
      · obtain ⟨n, g, h⟩ := giveBack_frame x.msg { s with overhead := { s.overhead with
          queue := s.overhead.queue.filter fun q => q.msg.cls = .notice ∨ q.msg.cls = .management
          sending := none, waitingLine := [], waitingSignal := [], received := [] } }
        exact ⟨_, n, g, h⟩
    · exact ⟨_, s.notices, s.mgmt, rfl⟩
  · exact ⟨_, s.notices, s.mgmt, rfl⟩

/-! ## The home link -/

theorem kickHome_frame (s : State) : ∃ d, kickHome s = { s with data := d } := by
  unfold kickHome
  split
  · split
    · exact ⟨_, rfl⟩
    · split
      · exact ⟨s.data, rfl⟩
      · exact ⟨_, rfl⟩
  · exact ⟨s.data, rfl⟩

theorem duePause_frame (p : Pause) (s : State) : ∃ d, duePause p s = { s with data := d } := by
  obtain ⟨d, h⟩ := kickHome_frame { s with data.pauseDue := some p }
  exact ⟨d, h⟩

theorem judgeFlow_frame (s : State) : ∃ d, judgeFlow s = { s with data := d } := by
  unfold judgeFlow
  dsimp only
  split
  · split
    · obtain ⟨d, h⟩ := duePause_frame .longest { s with data := { s.data with flowPause := true, pauseTimer := some 10 } }
      exact ⟨d, h⟩
    · exact ⟨_, rfl⟩
  · split
    · split
      · obtain ⟨d, h⟩ := duePause_frame .zero { s with data := { s.data with flowPause := false, pauseTimer := none } }
        exact ⟨d, h⟩
      · exact ⟨_, rfl⟩
    · exact ⟨s.data, rfl⟩

theorem putHome_frame (f : HomeFrame) (s : State) : ∃ d, putHome f s = { s with data := d } := by
  obtain ⟨d, h⟩ := kickHome_frame { s with data.buffer := s.data.buffer ++ [f] }
  exact ⟨d, h⟩

/-- A downstream frame changes the home delivery buffer, or is counted. -/
theorem deliverDown_frame (content : List Byte) (s : State) :
    ∃ d p a n, deliverDown content s = { s with data := d, perf := p, archive := a, notices := n } := by
  unfold deliverDown
  split
  · obtain ⟨d, h⟩ := putHome_frame ⟨.data, content⟩ s
    exact ⟨d, s.perf, s.archive, s.notices, h⟩
  · obtain ⟨p, a, n, h⟩ := count_frame .framesDropped s
    exact ⟨s.data, p, a, n, h⟩

theorem offerHomeResponses_frame (k : Nat) (s : State) :
    ∃ d g, offerHomeResponses k s = { s with data := d, mgmt := g } := by
  induction k generalizing s with
  | zero => exact ⟨s.data, s.mgmt, rfl⟩
  | succ k ih =>
    unfold offerHomeResponses
    split
    · exact ⟨s.data, s.mgmt, rfl⟩
    · rename_i e rest _
      dsimp only
      split
      · obtain ⟨d, g, h⟩ := ih { s with mgmt.home.responses := rest }
        exact ⟨d, g, h⟩
      · split
        · obtain ⟨d, hd⟩ := putHome_frame (responseFrame s e.response) { s with mgmt.home.responses := rest }
          obtain ⟨d', g', h⟩ := ih (putHome (responseFrame s e.response) { s with mgmt.home.responses := rest })
          exact ⟨d', g', by rw [h, hd]⟩
        · exact ⟨s.data, s.mgmt, rfl⟩

theorem offerOverheadResponses_frame (k : Nat) (s : State) :
    ∃ o g, offerOverheadResponses k s = { s with overhead := o, mgmt := g } := by
  induction k generalizing s with
  | zero => exact ⟨s.overhead, s.mgmt, rfl⟩
  | succ k ih =>
    unfold offerOverheadResponses
    split
    · split
      · rename_i t ht
        obtain ⟨o, g, e⟩ := takeResponse_frame s t ht
        obtain ⟨o', g', e'⟩ := ih t
        exact ⟨o', g', by rw [e', e]⟩
      · exact ⟨s.overhead, s.mgmt, rfl⟩
    · exact ⟨s.overhead, s.mgmt, rfl⟩

theorem onChan_frame (ch : Channel) (f : Chan → Chan) (s : State) : ∃ g, onChan ch f s = { s with mgmt := g } := by
  cases ch <;> exact ⟨_, rfl⟩

/-- A response changes the response lists and the channel it is offered to. -/
theorem addResponse_frame (ch : Channel) (r : Response) (s : State) :
    ∃ d o g, addResponse ch r s = { s with data := d, overhead := o, mgmt := g } := by
  unfold addResponse
  obtain ⟨g, h⟩ := onChan_frame ch (fun c => { c with responses := c.responses ++ [⟨r, false⟩] }) s
  dsimp only
  rw [h]
  cases ch
  · obtain ⟨d, g', e⟩ := offerHomeResponses_frame 8 { s with mgmt := g }
    exact ⟨d, s.overhead, g', e⟩
  · obtain ⟨o, g', e⟩ := offerOverheadResponses_frame 8 { s with mgmt := g }
    exact ⟨s.data, o, g', e⟩

/-! ## Ports and slots -/

theorem markReleased_frame (k : Slot) (s : State) : ∃ x, markReleased k s = { s with slots := x } := by
  cases k <;> exact ⟨_, rfl⟩

theorem onPort_frame (p : Port) (f : PortRec → PortRec) (s : State) : ∃ h, onPort p f s = { s with handset := h } := by
  cases p <;> exact ⟨_, rfl⟩

theorem onSlot_frame (k : Slot) (f : SlotRec → SlotRec) (s : State) : ∃ x, onSlot k f s = { s with slots := x } := by
  cases k <;> exact ⟨_, rfl⟩

/-- A release the part causes changes the slot and the overhead channel. -/
theorem releaseWith_frame (k : Slot) (why : ReleaseReason) (s : State) :
    ∃ x o n g, releaseWith k why s = { s with slots := x, overhead := o, notices := n, mgmt := g } := by
  unfold releaseWith
  dsimp only
  split
  · exact ⟨s.slots, s.overhead, s.notices, s.mgmt, rfl⟩
  · split
    · split
      · obtain ⟨x, h⟩ := markReleased_frame k (withdraw (isSeize k) s)
        exact ⟨x, _, s.notices, s.mgmt, h⟩
      · obtain ⟨x, hx⟩ := onSlot_frame k (fun x => { x with stale := satInc 15 x.stale }) s
        obtain ⟨y, hy⟩ := markReleased_frame k (onSlot k (fun x => { x with stale := satInc 15 x.stale }) s)
        obtain ⟨o, n, g, h⟩ := offer_frame (.release k why)
          (markReleased k (onSlot k (fun x => { x with stale := satInc 15 x.stale }) s))
        exact ⟨y, o, n, g, by rw [h, hy, hx]⟩
    · obtain ⟨y, hy⟩ := markReleased_frame k s
      obtain ⟨o, n, g, h⟩ := offer_frame (.release k why) (markReleased k s)
      exact ⟨y, o, n, g, by rw [h, hy]⟩

theorem setAllowance_frame (k : Nat) (s : State) : ∃ h, setAllowance k s = { s with handset := h } := by
  unfold setAllowance
  dsimp only
  split <;> split <;> exact ⟨_, rfl⟩

/-- Local samples reach the codecs alone (R85, R91). -/
theorem localVoice_frame (s : State) :
    localVoice s = { s with handset := { s.handset with
      p1 := { s.handset.p1 with codec := [localPair s.time.symbolNo s.handset.p1] }
      p2 := { s.handset.p2 with codec := [localPair s.time.symbolNo s.handset.p2] } } } := rfl

theorem restOfVoice_frame (s : State) :
    restOfVoice s = s ∨ restOfVoice s = { s with handset := { s.handset with
      p1 := { s.handset.p1 with codec := s.time.symbolsLeft.map fun n => localPair n s.handset.p1 }
      p2 := { s.handset.p2 with codec := s.time.symbolsLeft.map fun n => localPair n s.handset.p2 } } } := by
  unfold restOfVoice
  split
  · exact .inl rfl
  · exact .inr rfl

theorem recompute_frame (s : State) : ∃ f, recompute s = { s with framer := f } := ⟨_, rfl⟩

theorem endAttempt_frame (s : State) :
    ∃ l d sh f, endAttempt s = { s with line := l, loader := d, shifts := sh, framer := f } := ⟨_, _, _, _, rfl⟩

theorem enterHandshake_frame (s : State) :
    ∃ l d sh f, enterHandshake s = { s with line := l, loader := d, shifts := sh, framer := f } := ⟨_, _, _, _, rfl⟩

/-- A failed attempt changes the line's records and raises TRAINING_FAILED. -/
theorem failAttempt_frame (why : TrainFail) (s : State) :
    ∃ l d sh f t a n, failAttempt why s =
      { s with line := l, loader := d, shifts := sh, framer := f, tester := t, archive := a, notices := n } := by
  unfold failAttempt
  dsimp only
  obtain ⟨a, n, h⟩ := raise_frame .line (if satInc 255 (endAttempt s).line.attempts ≤ 2 then .minor else .major)
    .trainingFailed [Config.trainingReason why.index, (satInc 255 (endAttempt s).line.attempts : Int)]
    { endAttempt s with
      line := { (endAttempt s).line with
        state := .wait, attempts := satInc 255 (endAttempt s).line.attempts
        backoff := backoffOf (satInc 255 (endAttempt s).line.attempts) }
      tester.autoPending := (endAttempt s).tester.autoPending || satInc 255 (endAttempt s).line.attempts == 3 }
  exact ⟨_, _, _, _, _, a, n, h⟩

/-! ## Bounded counts -/

theorem satInc_le (top n : Nat) (h : n ≤ top) : satInc top n ≤ top := by unfold satInc; split <;> omega

theorem clampNat_range (lo hi : Nat) (x : Int) (h : lo ≤ hi) : lo ≤ clampNat lo hi x ∧ clampNat lo hi x ≤ hi := by
  unfold clampNat clamp
  split
  · omega
  · split <;> omega

theorem posSub_lt (a b : Nat) : posSub a b < 4294967296 := Nat.mod_lt _ (by decide)

theorem ahead_lt (c n : Nat) : ahead c n < 256 := Nat.mod_lt _ (by decide)

end Sys2Proof.Machine
end

