-- ==== Sys2Proof/Laws/Home.lean ====
section
/-! SUPPORT. What the emptying of the home delivery buffer can change. -/
namespace Sys2Proof.Machine

/-- The frames of the emptied buffer change the Performance Monitor, the archive and the Notice Unit, and none is left. -/
theorem returnFrames_frame (l : List HomeFrame) (s : State) :
    ∃ p a n, returnFrames l s = { s with perf := p, archive := a, notices := n, data.buffer := [] } := by
  induction l generalizing s with
  | nil => exact ⟨s.perf, s.archive, s.notices, rfl⟩
  | cons f rest ih =>
    rw [returnFrames]
    split
    · obtain ⟨p, a, n, h⟩ := count_frame .framesDropped { s with data.buffer := rest }
      obtain ⟨p', a', n', h'⟩ := ih (count .framesDropped { s with data.buffer := rest })
      exact ⟨p', a', n', by rw [h', h]⟩
    · obtain ⟨p, a, n, h⟩ := ih { s with data.buffer := rest }
      exact ⟨p, a, n, h⟩
    · rename_i x _
      obtain ⟨n, h⟩ := returnNotice_frame .home x { s with data.buffer := rest }
      obtain ⟨p', a', n', h'⟩ := ih (returnNotice .home x { s with data.buffer := rest })
      exact ⟨p', a', n', by rw [h', h]⟩

/-- Outside an UP link the offered responses of the home channel are discarded, and nothing else changes (R191). -/
theorem offerHomeResponses_down (fuel : Nat) (s : State) (h : s.data.linkUp = false) :
    ∃ l, offerHomeResponses fuel s = { s with mgmt.home.responses := l } := by
  induction fuel generalizing s with
  | zero => exact ⟨_, rfl⟩
  | succ fuel ih =>
    unfold offerHomeResponses
    split
    · exact ⟨_, rfl⟩
    · rename_i rest _
      obtain ⟨l, hl⟩ := ih { s with mgmt.home.responses := rest } h
      exact ⟨l, by simpa [h] using hl⟩

end Sys2Proof.Machine
end

