-- ==== Sys2Proof/Laws/Tones.lean ====
section
/-! SUPPORT. The sums over a bank, the lengths of the tables, and what a payload and its tones hold. -/
namespace Sys2Proof.Machine

/-! ## Sums -/

theorem bitTotal_from (bank : List ToneRec) (n : Nat) : bank.foldl (fun n r => n + r.bits) n = n + bitTotal bank := by
  unfold bitTotal
  induction bank generalizing n with
  | nil => simp
  | cons r rest ih => simp only [List.foldl_cons]; rw [ih (n + r.bits), ih (0 + r.bits)]; omega

@[simp] theorem bitTotal_nil : bitTotal [] = 0 := rfl

@[simp] theorem bitTotal_cons (r : ToneRec) (bank : List ToneRec) : bitTotal (r :: bank) = r.bits + bitTotal bank := by
  rw [bitTotal, List.foldl_cons, bitTotal_from]; omega

theorem gainSum_from (bank : List ToneRec) (n : Int) : bank.foldl (fun n r => n + r.gain) n = n + gainSum bank := by
  unfold gainSum
  induction bank generalizing n with
  | nil => simp
  | cons r rest ih => simp only [List.foldl_cons]; rw [ih (n + r.gain), ih (0 + r.gain)]; omega

@[simp] theorem gainSum_nil : gainSum [] = 0 := rfl

@[simp] theorem gainSum_cons (r : ToneRec) (bank : List ToneRec) : gainSum (r :: bank) = r.gain + gainSum bank := by
  rw [gainSum, List.foldl_cons, gainSum_from]; omega

theorem fillOf_from (q : List (List Byte)) (n : Nat) : q.foldl (fun n f => n + f.length) n = n + fillOf q := by
  unfold fillOf
  induction q generalizing n with
  | nil => simp
  | cons f rest ih => simp only [List.foldl_cons]; rw [ih (n + f.length), ih (0 + f.length)]; omega

@[simp] theorem fillOf_append (q : List (List Byte)) (f : List Byte) : fillOf (q ++ [f]) = fillOf q + f.length := by
  simp [fillOf]

@[simp] theorem bufferFill_append (b : List HomeFrame) (f : HomeFrame) :
    bufferFill (b ++ [f]) = bufferFill b + f.bytes.length := by
  simp [bufferFill]

/-! ## Lengths of the tables -/

@[simp] theorem writeEntries_length (d : Dir) (bank : List ToneRec) (es : List SwapEntry) :
    (writeEntries d bank es).length = bank.length := by
  unfold writeEntries
  induction es generalizing bank with
  | nil => rfl
  | cons e rest ih => rw [List.foldl_cons, ih]; split <;> simp

/-- A record of a bank after the entries of an order are written is a record it had, or an entry. -/
theorem writeEntries_mem (d : Dir) (bank : List ToneRec) (es : List SwapEntry) (r : ToneRec) (h : r ∈ writeEntries d bank es) :
    r ∈ bank ∨ ∃ e ∈ es, r = ⟨e.bits, e.gain⟩ := by
  unfold writeEntries at h
  induction es generalizing bank with
  | nil => exact .inl h
  | cons e rest ih =>
    rcases ih _ h with h | ⟨x, hx, rfl⟩
    · simp only at h
      split at h
      · rcases List.mem_or_eq_of_mem_set h with h | rfl
        · exact .inl h
        · exact .inr ⟨e, by simp, rfl⟩
      · exact .inl h
    · exact .inr ⟨x, by simp [hx], rfl⟩

theorem loadBank_length (p : Pass) (m tone : Nat) (s0s : List Int) (cs : List ToneSetting) :
    (loadBank p m tone s0s cs).length = min s0s.length cs.length := by
  induction s0s generalizing tone cs with
  | nil => simp [loadBank]
  | cons s0 rest ih =>
    cases cs with
    | nil => simp [loadBank]
    | cons c cs => simp [loadBank, ih]

@[simp] theorem followGains_length (meas : List Meas) (olds news : List Int) :
    (followGains meas olds news).length = meas.length := by
  induction meas generalizing olds news with
  | nil => simp [followGains]
  | cons m rest ih => cases olds <;> cases news <;> simp [followGains, ih]

/-! ## Tones and payloads -/

@[simp] theorem toneBits_length (n : Nat) (bits : List Bool) : (toneBits n bits).length = n := by
  simp only [toneBits, List.length_append, List.length_take, List.length_replicate]; omega

/-- A received payload has B bits, whatever the tones decided (R3). -/
theorem demapTones_length (bank : List ToneRec) (tones : List (List Bool)) :
    (demapTones bank tones).length = bitTotal bank := by
  induction bank generalizing tones with
  | nil => rfl
  | cons r rest ih => simp [demapTones, ih]

/-- The tones of an upstream symbol carry, in ascending order, the first B bits of its payload (R3). -/
theorem mapTones_bits (tone : Nat) (bank : List ToneRec) (bits : List Bool) :
    (mapTones tone bank bits).flatMap (·.2) = bits.take (bitTotal bank) := by
  induction bank generalizing tone bits with
  | nil => simp [mapTones]
  | cons r rest ih =>
    unfold mapTones
    split
    · rename_i h; simp [ih, h]
    · simp only [List.flatMap_cons, ih, bitTotal_cons]
      rw [List.take_add]

theorem padded_length (total : Nat) (bytes : List Byte) (h : 8 * bytes.length ≤ total) :
    (padded total bytes).length = total := by
  have : (bytes.flatMap bitsOf).length = 8 * bytes.length := by
    induction bytes with
    | nil => rfl
    | cons b rest ih => rw [List.flatMap_cons, List.length_append, ih (by simp at h; omega)]; simp [bitsOf]; omega
  simp only [padded, List.length_append, List.length_replicate, this]; omega

/-! ## The grant of ring units (R95) -/

/-- The units granted never exceed the units free. -/
theorem granted_le (free : Nat) (start1 start2 skip1 skip2 : Bool) :
    (if (granted free start1 start2 skip1 skip2).1 then 1 else 0) +
      (if (granted free start1 start2 skip1 skip2).2 then 1 else 0) ≤ free := by
  rcases free with _ | _ | n <;> cases start1 <;> cases start2 <;> cases skip1 <;> cases skip2 <;> simp [granted]

end Sys2Proof.Machine
end

