-- ==== Sys2Proof/Tests/Slice0.lean ====
section
/-! SUPPORT. Tests of the model: small states, the spec's worked values, an ill-formed term for each check of
WellFormed, and for every statement with hypotheses a state and operands that meet them all. -/
namespace Sys2Proof.Tests
open Sys2Proof Sys2Proof.Machine
set_option Elab.async false

/-! ## Small states -/

/-- The part after reset, its archive at rest with block 0 CURRENT. -/
def base : State :=
  { State.reset with
    archive := { State.reset.archive with
      flash := ⟨some ⟨1, 1⟩, []⟩ :: List.replicate 3 ⟨none, []⟩
      table := ⟨.current, 1, 1, 0, 126, 0⟩ :: List.replicate 3 ⟨.erased, 0, 1, 0, 126, 0⟩
      pointer := 0, state := .ready, erase := none } }

/-- A line state reached in training or later. -/
def lineIn (x : LineState) : State := { base with line := { Line.reset with state := x } }

/-- A line in SERVICE: 2 bits on every RX tone, 4 on every TX tone, in bank A. -/
def svc : State :=
  { lineIn .service with
    tones := { Tones.reset with rxA := List.replicate 223 ⟨2, 0⟩, txA := List.replicate 26 ⟨4, 0⟩ }
    framer := { Framer.reset with rx := budgetOf 446 0, tx := budgetOf 104 0 } }

def home : Via := ⟨.home, 7, [1, 2, 3, 4, 5, 6]⟩

def oper : Via := ⟨.operator, 7, []⟩

/-- A port with its loop closed, in a state. -/
def portIn (x : PortState) : PortRec := { PortRec.reset true with state := x, loop := .offHook }

def withP1 (r : PortRec) (s : State) : State := { s with handset.p1 := r }

/-- Whether a command ends in a next state that passes a test. -/
def passes (c : Instr) (s : State) (f : State → Bool) : Bool :=
  match exec c s with
  | .next t => f t
  | _ => false

/-! ## Witnesses: states and operands that meet every hypothesis of a statement, clause by clause -/

def unpowered : State := { svc with powered := false }

theorem witness_StepRunsFront : svc.powered = true ∧ unpowered.powered = false := by decide +kernel

theorem witness_UnpoweredTakesNothing :
    unpowered.powered = false ∧ ∀ m b x y, Instr.readStatus home ≠ .powerOn m b x y :=
  ⟨rfl, fun _ _ _ _ h => Instr.noConfusion h⟩

def isNext (o : Host.Outcome State Fault Refusal) : Bool :=
  match o with
  | .next _ => true
  | _ => false

theorem witness_TimeLawIsKept : TimeLaw svc.time ∧ isNext (step svc) = true :=
  ⟨⟨by decide, by decide, by decide, by decide, by decide, by decide⟩, by decide +kernel⟩

theorem witness_FlashLawIsKept : FlashLaw svc.archive ∧ isNext (step svc) = true :=
  ⟨⟨by decide, by decide +kernel, fun _ h => by cases h⟩, by decide +kernel⟩

theorem svc_rangeLaw : RangeLaw svc where
  margins := ⟨by decide, by decide, by decide, by decide⟩
  items x h := absurd h (by simp [svc, lineIn, base, State.reset, blankItems])
  programming _ h := nomatch h
  rxA := by unfold LegalBank LegalTone; decide +kernel
  rxB := by unfold LegalBank LegalTone; decide +kernel
  txA := by unfold LegalBank LegalTone; decide +kernel
  txB := by unfold LegalBank LegalTone; decide +kernel
  rxSwap _ h := nomatch h
  txSwap _ h := nomatch h
  rxCaps := by unfold LegalCaps; decide +kernel
  txCaps := by unfold LegalCaps; decide +kernel
  allowance := rfl
  units := by decide
  buffer := by decide
  homeList := by decide
  operatorList := by decide
  carried _ h := nomatch h

theorem witness_RangeLawIsKept : RangeLaw svc ∧ isNext (step svc) = true := ⟨svc_rangeLaw, by decide +kernel⟩

theorem svc_lineLaw : LineLaw svc where
  shape := ⟨rfl, rfl, rfl, rfl, rfl, rfl⟩
  gains := by decide +kernel
  budget := by decide +kernel
  outside h := absurd rfl h
  free
    | .s0, _ => rfl
    | .s1, _ => rfl
  newest := by decide
  pass _ h := nomatch h
  waiting h := nomatch h
  rxTable h := nomatch h
  txTable h := nomatch h
  ready h := nomatch h
  entry h := nomatch h
  passing h := nomatch h
  shifting h := by rcases h with h | h <;> exact nomatch h
  agreed h := nomatch h
  txShift h := nomatch h
  rxSwap _ h := nomatch h
  txSwap _ h := nomatch h
  claim _ h := nomatch h

theorem witness_LineLawIsKept : LineLaw svc ∧ isNext (step svc) = true := ⟨svc_lineLaw, by decide +kernel⟩

theorem witness_CapacityLawIsKept : CapacityLaw svc ∧ isNext (step svc) = true :=
  ⟨⟨by decide, by decide, by decide, by decide, by decide, by decide, by decide, by decide, by decide, by decide,
    by decide⟩, by decide +kernel⟩

def restarting : State := { svc with mgmt.restart := some ⟨.home, 60, 0⟩ }

theorem witness_RestartTakesEffect :
    restarting.powered = true ∧ restarting.mgmt.restart = some ⟨.home, 60, 0⟩ ∧ restarting.factory.programming = none := by
  decide +kernel

theorem witness_CycleBoundaryCounts :
    (svc.powered = true ∧ svc.line.state = .service ∧ svc.slots.s0.released = false ∧ svc.slots.s1.released = false) ∧
    (∀ x ∈ [LineState.off, .handshake, .wait, .test], ∀ n ∈ [0, 39],
      let s : State := { lineIn x with time.symbolNo := n }
      s.powered = true ∧ s.line.state = x ∧ s.time.symbolNo < 40 ∧ s.slots.s0.released = false ∧
      s.slots.s1.released = false) := by
  decide +kernel

def sampled (x : LineState) : State := { svc with line.state := x, tones.goodSymbols := 20 }

theorem witness_SampleUpdatesS : ∀ x ∈ [LineState.probe, .service], ∀ i ∈ [0, 222],
    (sampled x).powered = true ∧ 20 ≤ (sampled x).tones.goodSymbols ∧
    ((sampled x).line.state = .probe ∨ (sampled x).line.state = .service) ∧ i < (sampled x).tones.meas.length ∧
    i < (List.replicate 223 (255 : Int)).length ∧ 0 ≤ (List.replicate 223 (255 : Int)).getD i 0 ∧
    (List.replicate 223 (255 : Int)).getD i 0 ≤ 255 := by decide +kernel

def atSecond : State := { svc with time.secondDue := true, time.uptime := 899 }

theorem witness_SecondBoundaryCounts : atSecond.powered = true ∧ atSecond.time.secondDue = true := by decide +kernel

theorem witness_SecondIsClassified :
    atSecond.powered = true ∧ atSecond.time.secondDue = true ∧ atSecond.line.state = .service ∧
    atSecond.perf.counters.length = 12 ∧ ∀ i, atSecond.perf.counters.getD i 0 < 65535 :=
  ⟨rfl, rfl, rfl, rfl, fun i => by
    rcases Nat.lt_or_ge i 12 with h | h
    · have : ∀ j < 12, atSecond.perf.counters.getD j 0 < 65535 := by decide +kernel
      exact this i h
    · have e : atSecond.perf.counters[i]? = none := List.getElem?_eq_none h
      rw [List.getD_eq_getElem?_getD, e]
      decide⟩

def atInterval (n : Nat) : State :=
  { svc with time.intervalDue := true, perf := { Perf.reset with ring := List.replicate n ⟨0, 0, 0, false, [], []⟩ } }

/-- The notice queue of section 8.3's example: sequences 100..123, of which 104 and 105 are INFO. -/
def fullNotices : Notices :=
  { Notices.reset with
    queue := (List.range 24).map fun n =>
      ⟨⟨100 + n, .line, if n = 1 ∨ n = 2 then .minor else if n = 4 ∨ n = 5 then .info else .major, .trainingFailed, 0, 0, [],
        0⟩, false, true, n, none, none⟩
    nextSequence := 124, homeEnable := false, nextPlace := 24 }

def noticed (n : Notices) : State := { svc with notices := n }

/-- A queue of one notice whose sequence number is the next one. -/
def nextHeld (sequence : Nat) : Notices :=
  { fullNotices with
    queue := [⟨⟨sequence, .line, .major, .trainingFailed, 0, 0, [], 0⟩, false, true, 0, none, none⟩]
    nextSequence := sequence, nextPlace := 1 }

def someEntry : NoticeEntry := ⟨⟨100, .line, .major, .trainingFailed, 0, 0, [], 0⟩, false, true, 0, none, none⟩

/-- The same notices with the INFO notice 104 returned by the overhead channel. -/
def returnedOne : Notices :=
  { fullNotices with
    queue := fullNotices.queue.map fun e => if e.place = 4 then { e with overheadReturn := some 24 } else e
    nextPlace := 25 }

def handing (n : Notices) : State :=
  { noticed n with
    overhead := { Overhead.reset with queue := List.replicate 15 ⟨1, .swapAck⟩, nextPlace := 2 }
    mgmt.operator.responses := [⟨⟨7, 1, .done, [], [], false⟩, true⟩] }

theorem witness_IntervalsAndNotices :
    (∀ n ∈ [0, 15, 16], (atInterval n).powered = true ∧ (atInterval n).time.intervalDue = true) ∧
    (let n := { fullNotices with operatorEnable := false };
      ((n.route .line).home && n.homeEnable) = false ∧ ((n.route .line).operator && n.operatorEnable) = false) ∧
    ((fullNotices.route .line).operator && fullNotices.operatorEnable) = true ∧
    ({ fullNotices with queue := fullNotices.queue.take 23 } : Notices).queue.length = 23 ∧
    124 ∉ (noticed { fullNotices with queue := fullNotices.queue.take 23 }).heldSequences ∧
    (∀ x ∈ [(100, 101), (65535, 0)], x.1 ∈ (noticed (nextHeld x.1)).heldSequences ∧
      x.2 ∉ (noticed (nextHeld x.1)).heldSequences ∧ x.2 = (x.1 + 1) % 65536) ∧
    (∃ v ∈ fullNotices.queue, v.notice.sequence = 104 ∧ fullNotices.queue.length = 24 ∧
      fullNotices.nextSequence ∉ (noticed fullNotices).heldSequences ∧ v.notice.severity.code < Severity.major.code ∧
      ∀ e ∈ fullNotices.queue, e.notice.severity.code < Severity.major.code →
        v.notice.severity.code ≤ e.notice.severity.code ∧ (e.notice.severity = v.notice.severity → v.place ≤ e.place)) ∧
    (∀ e ∈ fullNotices.queue, Severity.info.code ≤ e.notice.severity.code) ∧
    ((handing fullNotices).powered = true ∧ (handing fullNotices).line.state = .service ∧
      (handing fullNotices).overhead.queue.length = 15 ∧ (handing fullNotices).overhead.waitingLine = [] ∧
      (handing fullNotices).overhead.waitingSignal = [] ∧
      (∀ x ∈ (handing fullNotices).mgmt.operator.responses, x.taken = true) ∧
      someEntry ∈ fullNotices.queue ∧ someEntry.overhead = true ∧
      ∀ x ∈ fullNotices.queue, x ≠ someEntry → someEntry.overheadReturn = none ∧ x.overheadReturn = none ∧
        (x.notice.severity.code < someEntry.notice.severity.code ∨
          (x.notice.severity = someEntry.notice.severity ∧ someEntry.place < x.place))) ∧
    (∃ e ∈ returnedOne.queue, e.overhead = true ∧ e.overheadReturn = some 24 ∧
      ∀ x ∈ returnedOne.queue, x ≠ e → x.overheadReturn = none) ∧
    ({ fullNotices with operatorEnable := false } : Notices).operatorEnable = false ∧ fullNotices.operatorEnable = true ∧
    (∃ e ∈ fullNotices.queue, e.notice.sequence = 123) ∧ (∀ e ∈ fullNotices.queue, e.notice.sequence ≠ 3) ∧
    (nextHeld 100).queue.length < 24 := by
  decide +kernel

def someCopy : ArchCopy := ⟨.line, .major, .serviceLost, 0, [2]⟩

def someProgram : Program := ⟨0, 125, ⟨1, 1, someCopy, 0, [0#8, 0#8, 0#8]⟩, 1⟩

def cutShort (program : Option Program) (erase : Option Erase) (item : Option Programming) : State :=
  { svc with archive := { base.archive with program := program, erase := erase }, factory.programming := item }

def someErase : Erase := ⟨3, .operator, 5⟩

def critical : ArchCopy := { someCopy with severity := .critical }

def powerLossCopy : ArchCopy := ⟨.supply, .critical, .powerLoss, 0, [1]⟩

/-- The archive of `base`, with the records given waiting. -/
def waitingFor (l : List ArchCopy) : Archive := { base.archive with pendingList := l }

/-- An archive with no CURRENT block, its pointer at block 0: the states of its blocks, its mode and the records waiting. -/
def noCurrent (states : List BlockState) (mode : ArchiveMode) (l : List ArchCopy) : Archive :=
  { base.archive with
    table := states.map fun x => ⟨x, 9, 1, 126, 127, 0⟩, mode := mode, pendingList := l }

theorem witness_ArchiveKeepsRecords :
    (∀ x ∈ [cutShort none none none, cutShort (some someProgram) none none, cutShort none (some someErase) none,
      cutShort none none (some ⟨5, .holdCeiling 100, oper, 4⟩)], x.powered = true) ∧
    someProgram.block < base.archive.flash.length ∧ someErase.block < base.archive.flash.length ∧
    (2 ≠ someProgram.block ∧ (cutShort none (some someErase) none).archive.isTarget 2 = false) ∧
    (base.archive.sequence < 4294967294 ∧ base.archive.mode = .wrap ∧ (waitingFor []).pendingList.length < 8 ∧
      (noCurrent [.full, .bad, .bad, .bad] .keep []).mode = .keep ∧ (noCurrent [.full, .bad, .bad, .bad] .keep []).current = none ∧ someCopy.severity ≠ .critical ∧
      (waitingFor (List.replicate 8 someCopy)).pendingList.length = 8 ∧ critical.severity = .critical ∧
      (∀ x ∈ List.replicate 8 critical, x.severity = .critical) ∧
      List.replicate 5 critical ++ someCopy :: List.replicate 2 critical =
        (waitingFor (List.replicate 5 critical ++ someCopy :: List.replicate 2 critical)).pendingList ∧
      (List.replicate 5 critical ++ someCopy :: List.replicate 2 critical).length = 8) ∧
    ((waitingFor [someCopy]).state = .ready ∧ (waitingFor [someCopy]).erase = none ∧
      (waitingFor [someCopy]).current = some 0 ∧ ((waitingFor [someCopy]).entry 0).nextOrdinary < 126) ∧
    (let a := noCurrent [.bad, .full, .bad, .erased] .wrap [someCopy, critical];
      a.pendingList = [someCopy] ++ critical :: [] ∧ a.state = .ready ∧ a.erase = none ∧ a.current = none ∧
      (a.entry 1).state = .full ∧ (∀ i ∈ [0, 2, 3], (a.entry i).state ≠ .full) ∧ (a.entry 1).nextReserved = 127) ∧
    (let a : Archive := { waitingFor [someCopy, critical] with state := .erasing, erase := some someErase };
      a.state = .erasing ∧ a.erase = some someErase ∧ someErase.block ≠ 0 ∧ a.current = some 0 ∧
      (a.entry 0).nextOrdinary < 126) ∧
    (({ waitingFor [someCopy] with state := .erasing } : Archive).state = .erasing ∧
      ∀ x ∈ (waitingFor [someCopy]).pendingList, x.severity ≠ .critical) ∧
    (∀ x ∈ [BlockState.erased, .full, .needsErase], ∀ mode ∈ [ArchiveMode.wrap, .keep],
      let a := noCurrent [x, .bad, .bad, .bad] mode []
      a.current = none ∧ (∀ j ∈ [0, 1, 2], (a.entry ((a.pointer + 1 + j) % 4)).state = .bad) ∧
      (a.entry ((a.pointer + 1 + 3) % 4)).state = x ∧ a.isTarget 0 = false ∧ a.state = .ready ∧
      a.blockSequence < 4294967295 ∧ a.missed ≤ 65535) ∧
    (svc.supply.state ≠ .dormant ∧ channelFree oper.ch svc = true ∧ oper.ch = .operator) := by
  decide +kernel

theorem witness_ReceivedSymbolCounts : ∀ n ∈ [0, 39],
    (∀ x ∈ [LineState.probe, .tables, .service],
      ({ svc with line.state := x, time.symbolNo := n } : State).powered = true ∧
      ({ svc with line.state := x, time.symbolNo := n } : State).time.symbolNo < 40) ∧
    (∀ x ∈ [LineState.off, .handshake, .wait, .test],
      ({ lineIn x with time.symbolNo := n } : State).powered = true ∧
      ({ lineIn x with time.symbolNo := n } : State).line.state = x ∧
      ({ lineIn x with time.symbolNo := n } : State).time.symbolNo < 40) ∧
    40 ≤ ({ svc with time.symbolNo := 40 } : State).time.symbolNo := by decide +kernel

theorem witness_TransmittedSymbolHasBBits :
    svc.powered = true ∧ svc.line.state = .service ∧ svc.time.symbolNo < 40 ∧ (svc.tones.active .tx).length = 26 ∧
    svc.framer.tx.b = bitTotal (svc.tones.active .tx) ∧
    8 + 16 * svc.slots.laidOut + 8 * svc.framer.tx.d ≤ svc.framer.tx.b := by decide +kernel

theorem witness_SentFrameIsReceived : ∀ n ∈ [64, 1536],
    64 ≤ (List.replicate n 0#8).length ∧ (List.replicate n 0#8).length ≤ 1536 ∧ svc.framer.window = [] ∧
    svc.framer.hunting = false := by decide +kernel

/-- A notice being sent, its last byte carried, with messages of two classes waiting. -/
def someNotice : Notice := ⟨3, .line, .major, .serviceLost, 0, 0, [2], 0⟩

def noticeSent : State :=
  { svc with overhead := { Overhead.reset with
      sending := some ⟨0, .notice someNotice, [], 0⟩
      queue := [⟨1, .notice someNotice⟩, ⟨2, .swapAck⟩, ⟨3, .rateWithdraw⟩] } }

def someResponse : Response := ⟨7, 1, .done, [], [], false⟩

def responseSent : State :=
  { svc with
    overhead := { Overhead.reset with sending := some ⟨0, .response someResponse, [], 0⟩ }
    mgmt.operator.responses := [⟨someResponse, true⟩] }

theorem witness_ArbiterChoosesByClass :
    (noticeSent.powered = true ∧ noticeSent.overhead.sending = some ⟨0, .notice someNotice, [], 0⟩ ∧
      noticeSent.overhead.queue ≠ []) ∧
    (responseSent.powered = true ∧ responseSent.overhead.sending = some ⟨0, .response someResponse, [], 0⟩ ∧
      someResponse.ofRestart = false ∧ responseSent.overhead.queue = [] ∧
      responseSent.mgmt.operator.responses = [⟨someResponse, true⟩]) := by decide +kernel

def lineWaits : State :=
  { svc with overhead := { Overhead.reset with
      queue := List.replicate 15 ⟨1, .swapAck⟩, waitingLine := [.rateWithdraw, .swapAck], nextPlace := 2 } }

def signalWaits : State :=
  { lineWaits with overhead := { lineWaits.overhead with
      queue := [], waitingLine := [], waitingSignal := [.noAnswer 3, .flash .p1] } }

def responseWaits : State :=
  { svc with
    overhead := { Overhead.reset with queue := List.replicate 15 ⟨1, .swapAck⟩, nextPlace := 2 }
    mgmt.operator.responses := [⟨someResponse, true⟩, ⟨someResponse, false⟩] }

def linked : State := { svc with data.linkUp := true }

/-- A data frame of `n` bytes, with no priority tag. -/
def someFrame (n : Nat) : List Byte := List.replicate 12 1#8 ++ [0x08#8, 0x00#8] ++ List.replicate (n - 14) 0#8

/-- The same with a priority value. -/
def taggedFrame (value : Byte) (n : Nat) : List Byte :=
  List.replicate 12 1#8 ++ [0x81#8, 0x00#8, value <<< 5, 0x00#8] ++ List.replicate (n - 16) 0#8

/-- PRIORITY and BULK with eight frames of `n` bytes each, one map entry DISCARD. -/
def filled (n : Nat) (pause : Bool) : State :=
  { linked with data := { linked.data with
      priority := List.replicate 8 (List.replicate n 0#8), bulk := List.replicate 8 (List.replicate n 0#8)
      map := .bulk :: .discard :: linked.data.map.drop 2, flowPause := pause } }

/-- A management frame with the tag, the kind, the length named and the body. -/
def mgmtFrame (tag : List Byte) (kind : Byte) (n : Nat) (body : List Byte) : List Byte :=
  List.replicate 6 1#8 ++ List.replicate 6 2#8 ++ tag ++ be16 linked.data.managementType ++ [kind] ++ be16 n ++ body ++
    List.replicate 4 0#8

/-- The home channel with `n` requests queued and `m` responses listed. -/
def homeQueues (n m : Nat) : State :=
  { linked with mgmt.home := ⟨List.replicate n ⟨[1, 2, 3, 0, 0], []⟩, List.replicate m ⟨someResponse, false⟩⟩ }

/-- Frames of 64 and 1536 bytes, with and without a tag; messages of 4, 5 and all bytes, and one that runs past the frame. -/
theorem witness_MessagesAndFramesAreQueued_management :
    (linked.powered = true ∧ linked.data.linkUp = true ∧ linked.data.managementType < 65536 ∧
      linked.data.managementType ≠ 0x8100 ∧ linked.data.managementType ≠ 0x8808) ∧
    (∀ x ∈ [([], 43), ([0x81#8, 0x00#8, 0xE0#8, 0x05#8], 39), ([], 1515)], (x.1 = [] ∨ ∃ a ∈ [0xE0#8], ∃ b ∈ [0x05#8],
        x.1 = [0x81#8, 0x00#8, a, b]) ∧
      ∀ n ∈ [4, 5, x.2, x.2 + 1], n < 65536 ∧
        64 ≤ (mgmtFrame x.1 0x41#8 n (List.replicate x.2 0#8)).length ∧
        (mgmtFrame x.1 0x41#8 n (List.replicate x.2 0#8)).length ≤ 1536) ∧
    (0x40#8 ≠ 0x41#8 ∧ 4 < 5 ∧ (List.replicate 43 0#8).length < 44 ∧ 43 ≤ (List.replicate 43 0#8).length) ∧
    ((homeQueues 3 8).mgmt.home.requests.length < 4 ∧
      (4 ≤ (homeQueues 4 7).mgmt.home.requests.length ∧ (homeQueues 4 7).mgmt.home.responses.length < 8) ∧
      (4 ≤ (homeQueues 4 8).mgmt.home.requests.length ∧ 8 ≤ (homeQueues 4 8).mgmt.home.responses.length)) := by
  decide +kernel

/-- R122, R190: the message of a tagged management frame joins the home request queue with its source address. -/
theorem test_management_frame_is_queued :
    passes (.homeFrameReceived (mgmtFrame [0x81#8, 0x00#8, 0xE0#8, 0x05#8] 0x41#8 5 (List.replicate 39 7#8)) true) (homeQueues 0 0)
      (fun t => t.mgmt.home.requests == [⟨List.replicate 5 7#8, List.replicate 6 2#8⟩]) = true := by decide +kernel

theorem witness_MessagesAndFramesAreQueued :
    ((255 < 256 ∧ 65535 < 65536 ∧ 39 < 40) ∧
      (∀ n ∈ [1, 223], 1 ≤ (List.replicate n (12, -128)).length ∧ (List.replicate n (12, -128)).length ≤ 223 ∧
        ∀ x ∈ List.replicate n ((12 : Nat), (-128 : Int)), x.1 < 256 ∧ -128 ≤ x.2 ∧ x.2 ≤ 127) ∧
      (∀ n ∈ [1, 4], 1 ≤ (List.replicate n (⟨255, 255, 127⟩ : SwapEntry)).length ∧
        (List.replicate n (⟨255, 255, 127⟩ : SwapEntry)).length ≤ 4 ∧
        ∀ e ∈ List.replicate n (⟨255, 255, 127⟩ : SwapEntry), e.tone < 256 ∧ e.bits < 256 ∧ -128 ≤ e.gain ∧ e.gain ≤ 127)) ∧
    (lineWaits.powered = true ∧ lineWaits.overhead.queue.length = 15 ∧
      lineWaits.overhead.waitingLine = [.rateWithdraw, .swapAck] ∧
      signalWaits.powered = true ∧ signalWaits.overhead.queue.length < 16 ∧ signalWaits.overhead.waitingLine = [] ∧
      signalWaits.overhead.waitingSignal = [.noAnswer 3, .flash .p1]) ∧
    (responseWaits.powered = true ∧ responseWaits.overhead.queue.length = 15 ∧
      responseWaits.overhead.waitingLine = [] ∧ responseWaits.overhead.waitingSignal = [] ∧
      responseWaits.mgmt.operator.responses = [⟨someResponse, true⟩] ++ ⟨someResponse, false⟩ :: []) ∧
    (linked.powered = true ∧ linked.data.linkUp = true ∧ (someFrame 63).length < 64 ∧
      1536 < (someFrame 1537).length ∧ typeField (List.replicate 12 1#8 ++ [0x88#8, 0x08#8] ++ List.replicate 50 0#8) = 0x8808) ∧
    (∀ f ∈ [someFrame 64, someFrame 65, someFrame 1536, taggedFrame 1#8 64, taggedFrame 7#8 64, taggedFrame 7#8 65],
      64 ≤ f.length ∧ f.length ≤ 1536 ∧ typeField f ≠ 0x8808 ∧ typeField f ≠ linked.data.managementType) ∧
    linked.supply.state ≠ .dormant ∧ ({ linked with supply.state := .dormant } : State).supply.state = .dormant ∧
    (destinationOf (filled 504 false) (taggedFrame 7#8 64) = .priority ∧
      destinationOf (filled 504 false) (taggedFrame 1#8 64) = .discard ∧
      destinationOf (filled 504 false) (someFrame 64) = .bulk) ∧
    (fillOf (filled 504 false).data.priority + (taggedFrame 7#8 64).length = 4096 ∧
      fillOf (filled 504 false).data.priority + (taggedFrame 7#8 65).length = 4097) ∧
    (fillOf (filled 1272 false).data.bulk + (someFrame 64).length = 10240 ∧
      fillOf (filled 1272 false).data.bulk + (someFrame 65).length = 10241 ∧
      fillOf (filled 1528 true).data.bulk + (someFrame 64).length = 12288 ∧
      fillOf (filled 1528 true).data.bulk + (someFrame 65).length = 12289 ∧
      (filled 1528 true).data.flowPause = true ∧ (filled 1528 false).data.flowPause = false) := by decide +kernel

theorem witness_BadMessageIsDiscarded :
    svc.powered = true ∧ svc.line.state = .service ∧ (0x10#8 ≠ 0#8 ∧ 512 < 513) ∧
    (0x7F#8 ≠ 0#8 ∧ 1 = ([1#8] : List Byte).length ∧ readMessage 0x7F#8 [1#8] = none) := by decide +kernel

def repeatingStart : State := { State.reset with line.startRepeat := some 0 }

def repeatingTables : State := { lineIn .tables with line.rxTableRepeat := some 0, line.readyRepeat := some 0 }

theorem witness_TrainingMessagesRepeat :
    (repeatingStart.powered = true ∧ repeatingStart.line.state = .handshake ∧ repeatingStart.line.startRepeat = some 0) ∧
    (repeatingTables.powered = true ∧ repeatingTables.line.state = .tables ∧
      repeatingTables.line.rxTableRepeat = some 0 ∧ repeatingTables.line.readyRepeat = some 0) := by decide +kernel

def tablesReadySent : State := { lineIn .tables with line.readySent := true, time.cycleCount := 250 }

theorem witness_ReplyAndEntryAreTaken :
    (State.reset.powered = true ∧ State.reset.line.state = .handshake ∧ State.reset.line.probeStart = none ∧
      255 < 256) ∧
    (tablesReadySent.powered = true ∧ tablesReadySent.line.state = .tables ∧ tablesReadySent.line.readySent = true ∧
      tablesReadySent.line.entryCount = none ∧ 254 < 256 ∧ tablesReadySent.time.cycleCount < 256) ∧
    (([0#8, 0#8] : List Byte).length = 2 ∧ ([12#8, 3#8, 67#8] : List Byte).length < 65536 ∧
      [0#8, 0#8] ≠ checkBytes ([0x02#8] ++ be16 ([12#8, 3#8, 67#8] : List Byte).length ++ [12#8, 3#8, 67#8])) := by
  decide +kernel

def handshakeOver : State := { State.reset with line.handshakeTimer := some 0 }

def tablesOver : State := { lineIn .tables with line.tablesTimer := some 0, line.attempts := 2 }

theorem witness_AttemptTimersFail :
    (handshakeOver.powered = true ∧ handshakeOver.line.state = .handshake ∧ handshakeOver.line.handshakeTimer = some 0) ∧
    (tablesOver.powered = true ∧ tablesOver.line.state = .tables ∧ tablesOver.line.tablesTimer = some 0) := by
  decide +kernel

def probing : State := { State.reset with line.probeStart := some 255, time.cycleCount := 255 }

theorem witness_ProbeAndHandshakeStart :
    (probing.powered = true ∧ probing.line.state = .handshake ∧ probing.time.symbolNo = 0 ∧
      probing.line.probeStart = some probing.time.cycleCount) ∧
    ((lineIn .wait).powered = true ∧ (lineIn .wait).line.state = .wait ∧ (lineIn .wait).line.backoff = 0) := by
  decide +kernel

def probeOver (had : Bool) : State :=
  { lineIn .probe with line.probeTimer := some 0, line.probeSampled := had }

theorem witness_ProbeEnds : ∀ had : Bool,
    (probeOver had).powered = true ∧ (probeOver had).line.state = .probe ∧ (probeOver had).time.symbolNo = 0 ∧
    (probeOver had).line.probeTimer = some 0 ∧ (probeOver had).loader.running = none ∧
    (probeOver had).line.probeSampled = had := by decide +kernel

theorem witness_TxTableIsChecked :
    (lineIn .tables).powered = true ∧ (lineIn .tables).line.state = .tables ∧
    (lineIn .tables).line.txTableTaken = false ∧
    (∀ x ∈ [(6, 26, 2), (0, 255, 2), (6, 25, 2), (255, 0, 2), (6, 26, 13)],
      x.1 < 256 ∧ (List.replicate x.2.1 ((x.2.2 : Nat), (0 : Int))).length < 256 ∧
      ∀ y ∈ List.replicate x.2.1 ((x.2.2 : Nat), (0 : Int)), y.1 < 256 ∧ -128 ≤ y.2 ∧ y.2 ≤ 127) ∧
    bankBitsAllowed (lineIn .tables).tones.txSet (List.replicate 26 (2, 0)) = true ∧
    bankBitsAllowed (lineIn .tables).tones.txSet (List.replicate 26 (13, 0)) = false := by decide +kernel

def entering : State := { svc with line := { Line.reset with state := .tables, entryCount := some 0 } }

theorem witness_ServiceIsEntered :
    entering.powered = true ∧ entering.line.state = .tables ∧ entering.time.symbolNo = 0 ∧
    entering.line.entryCount = some entering.time.cycleCount ∧ entering.slots.s0.laid = false ∧
    entering.slots.s1.laid = false := by decide +kernel

def losing : State :=
  { svc with line.losTimer := 50, line.retrainSeconds := 2, line.severeSeconds := 10, line.attempts := 1 }

theorem witness_ServiceIsLost :
    losing.powered = true ∧ losing.line.state = .service ∧ losing.supply.state = .full ∧
    losing.supply.powerLossHold = none ∧ 50 ≤ losing.line.losTimer ∧ 2 ≤ losing.line.retrainSeconds ∧
    10 ≤ losing.line.severeSeconds := by decide +kernel

def shiftDue (supply : Bool) (low high : Nat) : State :=
  { svc with shifts.rx.supplyPending := supply, line.lowSeconds := low, line.highSeconds := high }

theorem witness_RxShiftStarts : ∀ x ∈ [(true, 10, 60), (false, 10, 60), (false, 9, 60)],
    (shiftDue x.1 x.2.1 x.2.2).powered = true ∧ (shiftDue x.1 x.2.1 x.2.2).line.state = .service ∧
    (shiftDue x.1 x.2.1 x.2.2).time.symbolNo = 0 ∧ (shiftDue x.1 x.2.1 x.2.2).shifts.rx.phase = .idle ∧
    (shiftDue x.1 x.2.1 x.2.2).shifts.rxSwap = none ∧ (shiftDue x.1 x.2.1 x.2.2).loader.running = none ∧
    (shiftDue x.1 x.2.1 x.2.2).shifts.rx.holdOff = none ∧
    ((shiftDue x.1 x.2.1 x.2.2).shifts.rx.supplyPending = true ∨ (shiftDue x.1 x.2.1 x.2.2).line.lowSeconds = 10 ∨
      (shiftDue x.1 x.2.1 x.2.2).line.highSeconds = 60) := by decide +kernel

/-- A training pass: every tone ACTIVE at cap 12 with S = 120. -/
def somePass : Pass :=
  { training := true, s0 := List.replicate 223 120, settings := List.replicate 223 ⟨12, .active⟩
    thresholds := builtInThresholds, credit := 12, m := 24, r := 4, ceiling := 255, holdCeiling := false, vFloor := 0
    bank := .a, ignored := false }

theorem witness_ToneIsLoaded :
    (⟨12, .active⟩ : ToneSetting).state = .active ∧ 33 ≤ somePass.ceiling ∧
    (2 ≤ 6 ∧ 6 ≤ 12 ∧ (threshold somePass.thresholds 6 : Int) ≤ 123 + 12 - 24 ∧ 6 ≤ 12) ∧
    (loadTone somePass 24 33 123 ⟨12, .active⟩).bits = 6 ∧ (loadTone somePass 24 33 20 ⟨12, .active⟩).bits = 0 := by
  decide +kernel

def passOver : State := { lineIn .tables with loader := ⟨some somePass, false⟩ }

/-- The TX_TABLE has been taken before the training pass ends. -/
def passOverTaken : State := { passOver with line.txTableTaken := true }

theorem witness_TrainingPassEnds :
    passOver.powered = true ∧ passOver.line.state = .tables ∧ passOver.loader = ⟨some somePass, false⟩ ∧
    somePass.training = true ∧ somePass.ignored = false ∧ somePass.bank = .a ∧ passOver.line.txTableTaken = false ∧
    (passOverTaken.powered = true ∧ passOverTaken.line.state = .tables ∧ passOverTaken.loader = ⟨some somePass, false⟩ ∧
      passOverTaken.line.txTableTaken = true ∧ passOverTaken.line.readySent = false) ∧
    8 + 16 * somePass.vFloor ≤ bitTotal (loadBank somePass somePass.m 33 somePass.s0 somePass.settings) := by
  decide +kernel

def offered : State :=
  { svc with
    shifts.rx := { RxShift.reset with phase := .offered, kind := .down, offerWait := 0 }
    overhead := { Overhead.reset with queue := [⟨0, .rateOffer false [(2, 0)]⟩, ⟨1, .swapAck⟩], nextPlace := 2 } }

/-- The RATE_OFFER has begun transmission, and other messages wait. -/
def offerSent : State :=
  { offered with overhead := { Overhead.reset with queue := List.replicate 15 ⟨0, .swapAck⟩ } }

theorem witness_OfferFails :
    offered.powered = true ∧ offered.line.state = .service ∧ offered.shifts.rx.phase = .offered ∧
    offered.shifts.rx.kind ≠ .supply ∧ offered.shifts.rx.offerWait = 0 ∧
    (⟨0, .rateOffer false [(2, 0)]⟩ : QueuedMsg) ∈ offered.overhead.queue ∧
    (offerSent.powered = true ∧ offerSent.line.state = .service ∧ offerSent.shifts.rx.phase = .offered ∧
      offerSent.shifts.rx.kind ≠ .supply ∧ offerSent.shifts.rx.offerWait = 0 ∧
      (∀ q ∈ offerSent.overhead.queue, isRateOffer q.msg = false) ∧ offerSent.overhead.queue.length < 16 ∧
      offerSent.overhead.waitingLine = [] ∧ offerSent.overhead.waitingSignal = []) := by decide +kernel

theorem witness_ShiftIsAgreedOrWithdrawn : ∀ count ∈ [4, 64],
    offered.powered = true ∧ offered.line.state = .service ∧ offered.shifts.rx.phase = .offered ∧ count < 256 ∧
    offered.time.cycleCount < 256 ∧ 4 ≤ (count + 256 - offered.time.cycleCount) % 256 ∧
    (count + 256 - offered.time.cycleCount) % 256 ≤ 64 := by decide +kernel

theorem witness_RateOfferIsAccepted : ∀ count ∈ [0, 3, 4, 64, 65, 255],
    svc.powered = true ∧ svc.line.state = .service ∧ count < 256 ∧ svc.time.cycleCount < 256 ∧
    svc.overhead.queue.length < 16 ∧ svc.overhead.waitingLine = [] ∧ svc.overhead.waitingSignal = [] := by decide +kernel

/-- Every tone of an offer with these bits and gain: 26 of them pass the checks 3 to 7 of R61. -/
def offerOf (bits : Nat) (gain : Int) : List (Nat × Int) := List.replicate 26 (bits, gain)

def orderRejected (n : Nat) (t : State) : Bool :=
  t.overhead.queue.map (·.msg) == [.rateDecline n] && t.shifts.tx.isNone &&
    t.tones.bank .tx (otherBank t.tones.txActive) == svc.tones.bank .tx (otherBank svc.tones.txActive)

/-- R61: the first check that fails gives the reason, here 1, 3 to 8; counts 4 and 64 ahead pass, 3 and 65 do not. -/
theorem test_rate_offer_checks :
    passes (.rateOffer .rx 0 false 7 (offerOf 1 1)) svc (orderRejected 1) = true ∧
    passes (.rateOffer .tx 0 false 7 (offerOf 1 1)) svc (orderRejected 3) = true ∧
    passes (.rateOffer .tx 0 false 6 (offerOf 1 1)) svc (orderRejected 4) = true ∧
    passes (.rateOffer .tx 0 false 6 (offerOf 3 11)) svc (orderRejected 5) = true ∧
    passes (.rateOffer .tx 0 false 6 (offerOf 0 1)) svc (orderRejected 6) = true ∧
    passes (.rateOffer .tx 0 false 6 (offerOf 0 0)) svc (orderRejected 7) = true ∧
    (∀ c ∈ [3, 65], passes (.rateOffer .tx c false 6 (offerOf 3 0)) svc (orderRejected 8) = true) ∧
    (∀ c ∈ [4, 64], passes (.rateOffer .tx c false 6 (offerOf 3 0)) svc
      (fun t => t.overhead.queue.map (·.msg) == [.rateAccept c] && t.shifts.tx == some ⟨c, false, 104⟩) = true) := by
  decide +kernel

def agreed : State :=
  { svc with shifts.rx := { RxShift.reset with phase := .agreed, hold := true }, shifts.tx := some ⟨0, true, 104⟩ }

theorem witness_ShiftsAreApplied :
    agreed.powered = true ∧ agreed.line.state = .service ∧ agreed.time.symbolNo = 0 ∧
    agreed.shifts.rx.phase = .agreed ∧ agreed.shifts.rx.swapCount = agreed.time.cycleCount ∧
    agreed.shifts.tx = some ⟨0, true, 104⟩ ∧ 0 = agreed.time.cycleCount := by decide +kernel

/-- The part's own order on weak tone 40, waiting for its answer. -/
def someSwap (wait : Option Nat) : RxSwap := ⟨[⟨40, 0, 0⟩], 0, wait, 40, false, false, false⟩

def swapping (wait : Option Nat) : State :=
  { svc with shifts.rxSwap := some (someSwap wait), shifts.held := [(33, 0), (34, 5)] }

theorem witness_SwapsAreAnswered :
    (svc.powered = true ∧ svc.line.state = .service ∧ swapFault .tx 10 [⟨6, 3, 0⟩, ⟨7, 5, 0⟩] svc = 0 ∧ 10 < 256 ∧
      svc.overhead.queue.length < 16 ∧ svc.overhead.waitingLine = [] ∧ svc.overhead.waitingSignal = []) ∧
    (∀ n ∈ [0, 100], (swapping (some n)).powered = true ∧ (swapping (some n)).line.state = .service ∧
      (swapping (some n)).shifts.rxSwap = some (someSwap (some n)) ∧ (someSwap (some n)).acked = false ∧
      (someSwap (some n)).wait = some n) ∧
    (33, (swapping none).time.uptime) ∈ (swapping none).shifts.held := by decide +kernel

def swapsDue : State :=
  { svc with
    shifts.rxSwap := some { someSwap none with acked := true, passed := true, due := true }
    shifts.txSwap := some ⟨[⟨6, 3, -1⟩], 0⟩ }

theorem witness_SwapsAreApplied :
    swapsDue.powered = true ∧ swapsDue.line.state = .service ∧ swapsDue.time.symbolNo = 0 ∧
    swapsDue.shifts.rxSwap = some { someSwap none with acked := true, passed := true, due := true } ∧
    swapsDue.shifts.txSwap = some ⟨[⟨6, 3, -1⟩], 0⟩ ∧ 0 = swapsDue.time.cycleCount := by decide +kernel

/-- A tracker LOCKED on the period 2000, its reference at position 100. -/
def lockedImpulse : Impulse := { Impulse.reset with state := .locked, p := 2000, reference := some 100 }

def predicted (prediction tail : Option Nat) (misses : Nat) : State :=
  { svc with impulse := { lockedImpulse with prediction := prediction, tail := tail, missCount := misses } }

theorem witness_PredictionPasses :
    (predicted (some 0) none 0).powered = true ∧ (predicted (some 0) none 0).line.state = .service ∧
    (predicted (some 0) none 0).impulse.state = .locked ∧ (predicted (some 0) none 0).impulse.prediction = some 0 ∧
    ∀ n ∈ [1, 2], (predicted none (some 0) n).powered = true ∧ (predicted none (some 0) n).line.state = .service ∧
      (predicted none (some 0) n).impulse.state = .locked ∧ (predicted none (some 0) n).impulse.tail = some 0 ∧
      ((predicted none (some 0) n).impulse.missCount < 2 ↔ n = 1) := by decide +kernel

def scheduleDue : State :=
  { svc with
    time := { svc.time with symbolCounter := 2080, cycleCount := 250 }, impulse := { lockedImpulse with due := true, prediction := some 642 } }

def scheduled : State := { svc with impulse.up := some ⟨1600, 50, 2, 50⟩ }

theorem witness_SchedulesAreExchanged :
    (scheduleDue.powered = true ∧ scheduleDue.line.state = .service ∧ scheduleDue.time.symbolNo = 0 ∧
      scheduleDue.impulse.due = true ∧ scheduleDue.impulse.downOut = none ∧ scheduleDue.impulse.state = .locked ∧
      (∃ start, scheduleStart scheduleDue = some start ∧ 16 ≤ posSub start scheduleDue.time.symbolCounter / 40 ∧
        posSub start scheduleDue.time.symbolCounter / 40 ≤ 32) ∧
      scheduleDue.overhead.queue.length < 16 ∧ scheduleDue.overhead.waitingLine = [] ∧
      scheduleDue.overhead.waitingSignal = []) ∧
    (∀ x ∈ [(1600, 1, 1, 0), (16000, 64, 4, 39)], 1600 ≤ x.1 ∧ x.1 ≤ 16000 ∧ 1 ≤ x.2.2.1 ∧ x.2.2.1 ≤ 4 ∧ x.2.2.2 < 40 ∧
      x.2.1 < 256 ∧ svc.time.cycleCount < 256 ∧ 1 ≤ (x.2.1 + 256 - svc.time.cycleCount) % 256 ∧
      (x.2.1 + 256 - svc.time.cycleCount) % 256 ≤ 64) ∧
    (scheduled.powered = true ∧ scheduled.line.state = .service ∧ scheduled.impulse.up = some ⟨1600, 50, 2, 50⟩) := by
  refine ⟨⟨by decide +kernel, by decide +kernel, by decide +kernel, by decide +kernel, by decide +kernel,
    by decide +kernel, ⟨(scheduleStart scheduleDue).getD 0, ?_⟩, ?_⟩, ?_, ?_⟩ <;> decide +kernel

/-- An ACTIVE call of port 1 in slot 0, laid out. -/
def callUp : State :=
  { svc with
    slots.s0 :=
      { SlotRec.free 0 with
        state := .active, use := some .outgoing, party := .port .p1, laid := true, concealed := 8
        last := some (0x11#8, 0x22#8) }
    framer.rx := budgetOf 446 1, framer.tx := budgetOf 104 1, framer.window := [0#8, 64#8] }

/-- Ratios below T[2] − C = 46 on `n` of the 223 tones of 2 bits; a quarter of them, rounded up, is 56. -/
def ratiosBelow (n : Nat) : List Int := List.replicate n 45 ++ List.replicate (223 - n) 46

/-- A payload of zero bits, tone by tone. -/
def zeroTones : List (List Bool) := List.replicate 223 [false, false]

/-- A message and a frame on their way, with the upstream quiet windows given. -/
def sendingUp (w : Option Schedule) : State :=
  { callUp with
    impulse.up := w, overhead.sending := some ⟨0, .swapAck, [0xA1#8, 0xA2#8], 0⟩
    framer.up := .frame false (List.replicate 11 0x33#8) }

theorem witness_SymbolsAreSplitAndJudged :
    (([[true, false], []] : List (List Bool)).length = ([⟨2, 0⟩, ⟨0, 0⟩] : List ToneRec).length ∧
      ∀ x ∈ ([⟨2, 0⟩, ⟨0, 0⟩] : List ToneRec).zip [[true, false], []], x.2.length = x.1.bits) ∧
    (∀ quiet : Bool, (if quiet then [] else List.replicate 52 7#8).length = if quiet then 0 else callUp.framer.rx.d) ∧
    (callUp.powered = true ∧ callUp.line.state = .service ∧ callUp.time.symbolNo < 40 ∧
      callUp.overhead.received = [] ∧
      (splitPayload callUp false (demapTones (callUp.tones.active .rx) zeroTones)).overhead = 0x00#8) ∧
    (((svc.tones.active .rx).countP fun r => 0 < r.bits) = 223 ∧ ∀ n ∈ [55, 56],
      (((svc.tones.active .rx).zip (ratiosBelow n)).countP fun x =>
        0 < x.1.bits && x.2 < (threshold svc.tones.thresholds x.1.bits : Int) - svc.tones.credit) = n) ∧
    (∀ l, callUp.impulse.lastImpulse ≠ some l) ∧
    (callUp.perf.counters.getD 2 0 < 65535 ∧ 2 < callUp.perf.counters.length) ∧
    ((callUp.slot .s0).state = .active ∧ (callUp.slot .s0).released = false ∧ (callUp.slot .s0).laid = true ∧
      (callUp.slot .s0).party = .port .p1 ∧ (callUp.slot .s1).party ≠ .port .p1) ∧
    (callUp.framer.hunting = false ∧ 2 ≤ callUp.framer.window.length ∧ 2 + callUp.framer.rx.d < 64 + 4) ∧
    (∀ w ∈ [none, some ⟨1600, 0, 2, 0⟩, some ⟨1600, 0, 2, 1600⟩], (sendingUp w).impulse.upNext = [] ∧
      (sendingUp w).overhead.sending = some ⟨0, .swapAck, [0xA1#8, 0xA2#8], 0⟩ ∧
      (sendingUp w).framer.up = .frame false (List.replicate (sendingUp w).framer.tx.d 0x33#8 ++ [0x33#8]) ∧
      (sendingUp w).impulse.up = w) ∧
    (posSub svc.time.symbolCounter 0 < 2 ∧ 2 ≤ posSub svc.time.symbolCounter 1600) := by
  refine ⟨?_, ?_, ?_, ?_, fun _ h => (by cases h), ?_, ?_, ?_, ?_, ?_⟩ <;> decide +kernel

def looped (x : LoopState) (closed : Bool) : State :=
  withP1 { PortRec.reset closed with loop := x, state := if x = .onHook then .idle else .seizing } svc

theorem witness_LoopIsDebounced :
    ((looped .onHook true).powered = true ∧ ((looped .onHook true).port .p1).loop = .onHook ∧
      ((looped .onHook true).port .p1).closed = true) ∧
    (((looped .offHook false).port .p1).loop = .offHook ∧ ((looped .offHook false).port .p1).closed = false) ∧
    (((looped .brk true).port .p1).loop = .brk ∧ ((looped .brk true).port .p1).closed = true) := by decide +kernel

/-- A break in a port with two pulses counted. -/
def dialling (x : PortState) (loop : LoopState) (pulses : Nat) (make : Option Nat) : State :=
  withP1 { portIn x with loop := loop, pulses := pulses, make := make, brk := if loop = .brk then some 99 else none } svc

theorem witness_DigitsAndBreaksEnd :
    ((dialling .seizing .brk 2 none).powered = true ∧ ((dialling .seizing .brk 2 none).port .p1).loop = .brk ∧
      0 < ((dialling .seizing .brk 2 none).port .p1).pulses ∧
      (dialling .seizing .brk 2 none).supply.powerLossHold = none ∧
      isNext (exec (.breakTimerExpiry .p1) (dialling .seizing .brk 2 none)) = true) ∧
    ((dialling .connected .offHook 2 (some 0)).port .p1).make.isSome = true ∧
    (∀ x ∈ [PortState.seizing, .connected, .refused, .noService, .silent],
      ((dialling x .brk 0 none).port .p1).loop = .brk ∧ ((dialling x .brk 0 none).port .p1).state = x) := by
  decide +kernel

theorem witness_PulsesMakeDigits : ∀ n ∈ [1, 10],
    (1 ≤ ((dialling .seizing .offHook n none).port .p1).pulses ∧ ((dialling .seizing .offHook n none).port .p1).pulses ≤ 10 ∧
      ((dialling .seizing .offHook n none).port .p1).state = .seizing ∧
      ((dialling .seizing .offHook n none).port .p1).digits.length < 16) ∧
    ((dialling .connected .offHook n none).port .p1).state = .connected ∧
    10 < ((dialling .connected .offHook 11 none).port .p1).pulses := by decide +kernel

def ringingPort : PortRec :=
  { PortRec.reset false with
    state := .ringing, slot := some .s0, order := some 9, ringTimer := some 0, unitHeld := true
    cadence := some ⟨[(40, 80)], 0, true, some 0⟩ }

def ringSlot : SlotRec :=
  { SlotRec.free 0 with state := .reserved, use := some .ring, party := .set .one, order := some 9, number := 1, laid := true }

def ringing : State := { withP1 ringingPort svc with slots := { Slots.reset with s0 := ringSlot, admissions := 2 } }

def toned (x : PortState) : State := withP1 { portIn x with toneTimer := some 0 } svc

theorem witness_TonesAndRingsEnd :
    (∀ x ∈ [PortState.refused, .noService], (toned x).powered = true ∧ ((toned x).port .p1).state = x ∧
      ((toned x).port .p1).toneTimer = some 0) ∧
    (ringing.powered = true ∧ ringing.line.state = .service ∧ ringing.handset.p1.state = .ringing ∧
      ringing.handset.p1.cadence = some ⟨[(40, 80)], 0, true, some 0⟩ ∧ ringing.handset.p2.state ≠ .ringing ∧
      ringing.handset.p1.order = some 9 ∧ ringing.handset.p1.ringTimer = some 0 ∧
      ringing.handset.p1.slot = some .s0 ∧ ringing.slots.s0.state = .reserved ∧ ringing.slots.s0.released = false ∧
      ringing.slots.s0.use = some .ring ∧ ringing.slots.s0.order = some 9 ∧ ringing.overhead.queue.length < 16 ∧
      ringing.overhead.waitingLine = [] ∧ ringing.overhead.waitingSignal = []) := by decide +kernel

def outgoing (x : SlotState) (wait : Option Nat) (stale : Nat) : SlotRec :=
  { SlotRec.free stale with
    state := x, use := some .outgoing, party := .port .p1, wait := wait, number := 1, laid := true }

def seized (wait stale : Nat) : State :=
  { withP1 { portIn .seizing with slot := some .s0 } svc with slots.s0 := outgoing .reserved (some wait) stale }

theorem witness_SeizureIsAnswered : ∀ x ∈ [(1000, 0), (0, 0), (1000, 1)],
    (seized x.1 x.2).powered = true ∧ (seized x.1 x.2).line.state = .service ∧
    ((seized x.1 x.2).slot .s0).state = .reserved ∧ ((seized x.1 x.2).slot .s0).use = some .outgoing ∧
    ((seized x.1 x.2).slot .s0).party = .port .p1 ∧ ((seized x.1 x.2).slot .s0).released = false ∧
    ((seized x.1 x.2).slot .s0).wait = some x.1 ∧ ((seized x.1 x.2).slot .s0).stale = x.2 ∧
    ((seized x.1 x.2).port .p1).digits = [] := by decide +kernel

def calling : State :=
  { withP1 { portIn .connected with slot := some .s0 } svc with slots.s0 := outgoing .active none 0 }

theorem witness_CallsAreReleasedAndRung :
    (calling.powered = true ∧ calling.line.state = .service ∧ (calling.slot .s0).state ≠ .free ∧
      (calling.slot .s0).released = false ∧ (calling.slot .s0).party = .port .p1 ∧
      (calling.slot .s0).use = some .outgoing) ∧
    (∀ cadence ∈ [0, 7], cadence ≤ 7 ∧ orderSlot svc 9 = none ∧ svc.handset.p1.state = .idle ∧
      svc.shifts.rx.phase ≠ .pass ∧ admissible svc = true) ∧
    (ringing.slots.s0.state = .reserved ∧ ringing.slots.s0.released = false ∧ ringing.slots.s0.use = some .ring ∧
      ringing.slots.s0.order = some 9 ∧ ringing.handset.p1.state = .ringing ∧ ringing.handset.p1.slot = some .s0 ∧
      ringing.handset.p2.state ≠ .ringing) := by decide +kernel

/-- A rate-shift pass that leads to the voice floor `v` with the S given on the first `n` tones and 0 elsewhere. -/
def shiftPass (v n : Nat) (s0 : Int) : Pass :=
  { somePass with
    training := false, bank := .b, vFloor := v, s0 := List.replicate n s0 ++ List.replicate (223 - n) 0 }

def passing (kind : ShiftKind) (p : Pass) : State :=
  { svc with
    loader := ⟨some p, false⟩, shifts.rx := { RxShift.reset with phase := .pass, kind := kind, oldB := 446 } }

/-- The same with a call of port 1 in slot 0. -/
def passingCall : State :=
  { passing .down (shiftPass 1 4 70) with
    slots := { Slots.reset with s0 := outgoing .active none 0, admissions := 1, newest := some .s0 }
    handset.p1 := { portIn .connected with slot := some .s0 } }

theorem witness_PassAndSwapAreJudged :
    (somePass.r ≤ somePass.m ∧ somePass.m ≤ 63) ∧
    (∀ x ∈ [(ShiftKind.down, 0, 223, 120), (.up, 0, 223, 70), (.supply, 0, 223, 66), (.up, 0, 223, 66), (.down, 0, 0, 0)],
      let p := shiftPass x.2.1 x.2.2.1 x.2.2.2
      let s := passing x.1 p
      s.powered = true ∧ s.line.state = .service ∧ s.loader = ⟨some p, false⟩ ∧ p.training = false ∧
      p.ignored = false ∧ p.bank = otherBank s.tones.rxActive ∧ s.shifts.rx.phase = .pass ∧
      s.handset.p1.heldRequest = false ∧ s.handset.p2.heldRequest = false ∧ s.overhead.queue.length < 16 ∧
      s.overhead.waitingLine = [] ∧ s.overhead.waitingSignal = [] ∧ s.supply.state = .full ∧
      s.supply.powerLossHold = none) ∧
    (let bits (p : Pass) := bitTotal (loadBank p p.m 33 p.s0 p.settings);
      8 ≤ bits (shiftPass 0 223 120) ∧ 446 < bits (shiftPass 0 223 120) ∧ 8 ≤ bits (shiftPass 0 223 70) ∧
      bits (shiftPass 0 223 70) ≤ 446) ∧
    (let x := lowerPasses (shiftPass 0 223 66) 0 20 24;
      x.1 = true ∧ x.2.2 = 20 ∧
      bitTotal (loadBank (shiftPass 0 223 66) 20 33 (shiftPass 0 223 66).s0 (shiftPass 0 223 66).settings) ≤ 446) ∧
    (lowerPasses (shiftPass 0 0 0) 0 20 24).1 = false ∧
    (passingCall.powered = true ∧ passingCall.line.state = .service ∧ passingCall.loader = ⟨some (shiftPass 1 4 70), false⟩ ∧
      (lowerPasses (shiftPass 1 4 70) 1 20 24).1 = false ∧
      8 ≤ bitTotal (loadBank (shiftPass 1 4 70) 24 33 (shiftPass 1 4 70).s0 (shiftPass 1 4 70).settings) ∧
      passingCall.shifts.rx.kind ≠ .up ∧ passingCall.slots.s0.state = .active ∧ passingCall.slots.s0.released = false ∧
      passingCall.slots.s0.party = .port .p1 ∧ passingCall.slots.newest = some .s0 ∧
      passingCall.slots.s1.state = .free ∧ passingCall.overhead.queue.length < 15 ∧
      9 < passingCall.perf.counters.length ∧ passingCall.perf.counters.getD 9 0 < 65535) ∧
    (255 < 256 ∧ svc.time.cycleCount < 256 ∧ svc.overhead.queue.length < 16 ∧ svc.overhead.waitingLine = [] ∧
      svc.overhead.waitingSignal = []) := by decide +kernel

def sendingHome : State :=
  { linked with
    data := { linked.data with buffer := [⟨.data, [1]⟩, ⟨.data, [2]⟩], tx := .frame, pauseTimer := some 0, flowPause := true }
    mgmt.home.responses := [⟨someResponse, false⟩] }

/-- `n` data frames and then a notice in the home delivery buffer; the notice has the next sequence number, which the counter
has come round to, and the first frame dropped crosses the threshold of FRAMES_DROPPED. -/
def droppingFrames (n : Nat) : State :=
  { linked with
    data := { linked.data with buffer := List.replicate n ⟨.data, [1]⟩ ++ [⟨.notice someNotice, [2]⟩], tx := .frame }
    notices := { Notices.reset with nextSequence := someNotice.sequence }
    perf.thresholds := linked.perf.thresholds.set Counter.framesDropped.index 1 }

/-- A queue with room for every data frame and the notice: none queued, and 23 queued with no data frame. -/
theorem witness_HomeLinkMoves_notice :
    (∀ n ∈ [0, 1, 23], (droppingFrames n).powered = true ∧ (droppingFrames n).data.linkUp = true ∧
      (droppingFrames n).data.buffer = List.replicate n ⟨.data, [1]⟩ ++ [⟨.notice someNotice, [2]⟩] ∧
      (∀ f ∈ List.replicate n (⟨.data, [1]⟩ : HomeFrame), f.item = .data) ∧
      (droppingFrames n).notices.homeEnable = true ∧ (droppingFrames n).notices.nextSequence < 65536 ∧
      (droppingFrames n).overhead.queue.length ≤ 16 ∧
      (droppingFrames n).notices.queue.length + (List.replicate n (⟨.data, [1]⟩ : HomeFrame)).length < 24 ∧
      ∀ e ∈ (droppingFrames n).notices.queue, e.notice.sequence ≠ someNotice.sequence) ∧
    ({ fullNotices with queue := fullNotices.queue.take 23 } : Notices).queue.length + 0 < 24 ∧
    ∀ e ∈ fullNotices.queue, e.notice.sequence ≠ someNotice.sequence := by decide +kernel

/-- R141: the THRESHOLD of a dropped data frame passes over the number of the notice that is still in the buffer behind it, so
that both stand in the queue when the link has gone DOWN. -/
theorem test_link_down_keeps_the_notice : passes .homeLinkDown (droppingFrames 1) (fun t =>
    t.notices.queue.map (fun e => (e.notice.code, e.notice.sequence, e.home, e.overhead)) ==
      [(.threshold, someNotice.sequence + 1, false, true), (.serviceLost, someNotice.sequence, true, false)] &&
    t.data.buffer == []) = true := by decide +kernel

theorem witness_HomeLinkMoves :
    (svc.powered = true ∧ svc.data.linkUp = false) ∧
    (sendingHome.powered = true ∧ sendingHome.data.linkUp = true ∧ sendingHome.data.tx = .frame ∧
      sendingHome.data.buffer = [⟨.data, [1]⟩, ⟨.data, [2]⟩] ∧ sendingHome.data.pauseDue = none ∧
      sendingHome.data.pauseTimer = some 0 ∧ sendingHome.data.flowPause = true ∧
      bufferFill sendingHome.data.buffer ≤ 6144 ∧ sendingHome.mgmt.home.responses = [⟨someResponse, false⟩] ∧
      bufferFill sendingHome.data.buffer + (responseFrame sendingHome someResponse).bytes.length ≤ 6144) := by
  decide +kernel

def programming : State := { svc with archive := { base.archive with program := some someProgram, state := .programming } }

def erasing : State :=
  { svc with archive := { base.archive with
      table := ⟨.full, 1, 1, 126, 126, 0⟩ :: base.archive.table.tail
      erase := some ⟨1, .internal, 0⟩, state := .erasing } }

theorem witness_FlashOperationsEnd :
    (programming.powered = true ∧ programming.supply.powerLossHold = none ∧ programming.archive.flash.length = 4 ∧
      programming.archive.table.length = 4 ∧ programming.archive.mode = .wrap ∧
      programming.archive.program = some someProgram ∧ programming.archive.erase = none ∧
      programming.archive.state = .programming ∧ someProgram.block < 4 ∧
      (programming.archive.entry someProgram.block).nextOrdinary < 126 ∧
      programming.archive.current = some someProgram.block ∧ isNext (exec (.programDone true) programming) = true) ∧
    (erasing.powered = true ∧ erasing.supply.powerLossHold = none ∧ erasing.archive.flash.length = 4 ∧
      erasing.archive.table.length = 4 ∧ erasing.archive.mode = .wrap ∧
      erasing.archive.erase = some ⟨1, .internal, 0⟩ ∧ erasing.archive.program = none ∧
      erasing.archive.state = .erasing ∧ 1 < 4 ∧ erasing.archive.current = none) := by decide +kernel

def testing : State :=
  { withP1 { PortRec.reset false with state := .testing } base with
    tester.claim := some ⟨.portLeak, some .p1, .home, false, none, 0, false⟩ }

def testWanted : State := { lineIn .wait with tester.autoPending := true }

/-- A line test at the end of its time, the line taken from a state. -/
def lineTesting (k : TestType) (before : LineState) (automatic enabled : Bool) : State :=
  { lineIn .test with
    line := { Line.reset with state := .test, enabled := enabled, attempts := 2 }
    tester.claim := some ⟨k, none, .operator, false, some before, 0, automatic⟩ }

/-- No voltage on the line, and one at which LINE_VOLTAGE fails. -/
def measuring (volts : Int) : Measurement := ⟨volts, 0, 20000, 20000, none, 30, 20000⟩

theorem witness_TestsRun :
    (testing.powered = true ∧ testing.tester.claim = some ⟨.portLeak, some .p1, .home, false, none, 0, false⟩ ∧
      (testing.port .p1).loop = .onHook ∧ TestType.portLeak.index < testing.tester.results.length) ∧
    (∀ k ∈ [TestType.lineVoltage, .lineInsulation, .lineLoop],
      ∀ x ∈ [(LineState.off, false), (.off, true), (.wait, true), (.handshake, true), (.service, true)],
        (lineTesting k x.1 false x.2).powered = true ∧ (lineTesting k x.1 false x.2).line.enabled = x.2 ∧
        (lineTesting k x.1 false x.2).tester.claim = some ⟨k, none, .operator, false, some x.1, 0, false⟩ ∧
        k.index < (lineTesting k x.1 false x.2).tester.results.length) ∧
    ((lineTesting .lineVoltage .wait true true).tester.claim =
        some ⟨.lineVoltage, none, .operator, false, some .wait, 0, true⟩ ∧
      verdictOf .lineVoltage (limitsOf (lineTesting .lineVoltage .wait true true) .lineVoltage) (testValue .lineVoltage (measuring 0))
        ≠ .fail ∧
      verdictOf .lineVoltage (limitsOf (lineTesting .lineVoltage .wait true true) .lineVoltage)
        (testValue .lineVoltage (measuring (-200))) = .fail) ∧
    (testWanted.powered = true ∧ testWanted.tester.autoPending = true ∧ testWanted.line.state = .wait ∧
      testWanted.supply.state = .full ∧ testWanted.tester.claim = none) := by decide +kernel

/-- R174, R177: a passed LINE_VOLTAGE of the sequence hands on to LINE_INSULATION; one that fails gives the line back. -/
theorem test_sequence_stops_at_fail :
    passes (.testComplete (measuring 0)) (lineTesting .lineVoltage .wait true true)
      (fun t => t.line.state == .test && t.tester.claim.map (·.test) == some .lineInsulation) = true ∧
    passes (.testComplete (measuring (-200))) (lineTesting .lineVoltage .wait true true)
      (fun t => t.line.state == .wait && t.tester.claim.isNone) = true := by decide +kernel

/-- In FULL with the sense input absent, its loss timer run out. -/
def mainsGone : State := { svc with supply.mainsSense := false, supply.lossTimer := some 0 }

/-- In HOLD with the sense input present, its return timer run out. -/
def mainsReturned : State :=
  { svc with
    supply.state := .hold, supply.mainsPresent := false, supply.mainsSense := true, supply.returnTimer := some 0
    supply.wakeWindow := some 5, handset.allowance := 1 }

theorem witness_MainsMovesSupply :
    (svc.powered = true ∧ svc.supply.powerLossHold = none ∧ svc.supply.mainsPresent = true) ∧
    (mainsGone.powered = true ∧ mainsGone.supply.powerLossHold = none ∧ mainsGone.supply.mainsPresent = true ∧
      mainsGone.supply.mainsSense = false ∧ mainsGone.supply.battery = .good ∧ mainsGone.supply.state = .full ∧
      mainsGone.tester.claim = none) ∧
    (mainsReturned.powered = true ∧ mainsReturned.supply.powerLossHold = none ∧ mainsReturned.supply.mainsPresent = false ∧
      mainsReturned.supply.mainsSense = true ∧ mainsReturned.supply.state = .hold) ∧
    ({ svc with supply.battery := .low } : State).supply.battery ≠ .good := by decide +kernel

/-- A part in FULL, its loss timer run out, with a battery, its power-loss done and the reset's line or one in SERVICE. -/
def failing (b : Battery) (done inService : Bool) : State :=
  { (if inService then svc else base) with
    supply := { base.supply with mainsSense := false, lossTimer := some 0, battery := b, powerLossDone := done } }

/-- In FULL on a LOW battery, its loss timer run out. -/
def mainsLow (s : State) : State :=
  { s with supply := { s.supply with mainsSense := false, lossTimer := some 0, battery := .low } }

/-- A part without the mains. -/
def onBattery (x : SupplyState) (b : Battery) (s : State) : State :=
  { s with supply := { base.supply with state := x, mainsPresent := false, mainsSense := false, battery := b } }

theorem witness_MainsMovesSupply_batteries :
    (∀ s ∈ [mainsLow calling, mainsLow ringing, mainsLow { base with supply.wakeWindow := some 5 }],
      s.powered = true ∧ s.supply.powerLossHold = none ∧ s.supply.mainsPresent = true ∧ s.supply.mainsSense = false ∧
      s.supply.battery = .low ∧ s.supply.state = .full ∧ s.tester.claim = none ∧
      (s.slots.allFree = false ∨ s.handset.p1.state = .ringing ∨ s.supply.wakeWindow ≠ none)) ∧
    (∀ b ∈ [Battery.low, .exhausted, .none], ∀ done ∈ [true, false], ∀ x ∈ [true, false],
      (failing b done x).powered = true ∧ (failing b done x).supply.powerLossHold = none ∧
      (failing b done x).supply.mainsPresent = true ∧ (failing b done x).supply.mainsSense = false ∧
      (failing b done x).supply.battery = b ∧ (failing b done x).supply.state = .full ∧
      (failing b done x).tester.claim = none ∧ (failing b done x).supply.powerLossDone = done ∧
      (failing b done x).slots.allFree = true ∧ (failing b done x).handset.p1.state ≠ .ringing ∧
      (failing b done x).handset.p2.state ≠ .ringing ∧ (failing b done x).supply.wakeWindow = none ∧
      (failing b done x).overhead.queue.length < 16 ∧ (failing b done x).overhead.waitingLine = [] ∧
      (failing b done x).overhead.waitingSignal = []) ∧
    (svc.supply.mainsPresent = true ∧ svc.supply.battery ≠ .low ∧ svc.supply.battery ≠ .exhausted ∧
      svc.supply.battery ≠ .none) ∧
    (∀ x ∈ [SupplyState.full, .hold, .dormant], ∀ s ∈ [base, svc, calling],
      (onBattery x .good s).powered = true ∧ (onBattery x .good s).supply.powerLossHold = none ∧
      (onBattery x .good s).supply.mainsPresent = false ∧ (onBattery x .good s).supply.state = x ∧
      (onBattery x .good s).supply.battery = .good ∧ (onBattery x .good s).supply.powerLossDone = false ∧
      (onBattery x .good s).supply.wakeWindow = none ∧ (onBattery x .good s).tester.claim = none ∧
      (onBattery x .good s).overhead.queue.length < 16 ∧ (onBattery x .good s).overhead.waitingLine = [] ∧
      (onBattery x .good s).overhead.waitingSignal = []) ∧
    ((onBattery .hold .good calling).slots.allFree = false ∧ (onBattery .hold .good svc).slots.allFree = true ∧
      (onBattery .hold .good svc).handset.p1.state ≠ .ringing ∧ (onBattery .hold .good svc).handset.p2.state ≠ .ringing) := by
  refine ⟨?_, ?_, ?_, ?_, ?_⟩ <;> decide +kernel

/-- A message of LINE_CONTROL stands at place 0 already, beside one of a lower class. -/
def lineQueued (s : State) : State :=
  { s with overhead := { Overhead.reset with queue := [⟨0, .swapAck⟩, ⟨1, .digit .p1 3⟩], nextPlace := 2 } }

/-- R13, R185: POWER_LOSS goes "to the head of its class", also before a message whose place is 0. -/
theorem test_power_loss_is_first :
    passes (.batteryStateChange .exhausted) (lineQueued (onBattery .hold .good svc)) (fun t =>
      (arbiterChoice t.overhead.queue).map (·.msg) == some (.powerLoss 1) && t.overhead.queue.length == 3 &&
      t.supply.powerLossHold == some 300 && t.supply.powerLossWaiting) = true := by decide +kernel

def losingPower (hold : Nat) : State :=
  { svc with
    supply.state := .hold, supply.mainsPresent := false, supply.mainsSense := false, supply.battery := .low
    supply.powerLossHold := some hold, supply.powerLossDone := true }

/-- The last byte of POWER_LOSS has been carried. -/
def powerLossSent (hold : Nat) : State :=
  { losingPower hold with
    supply.powerLossWaiting := true
    overhead := { Overhead.reset with sending := some ⟨0, .powerLoss 1, [], 0⟩ } }

/-- POWER_LOSS waits, and no symbol has come for 50 cycles. -/
def powerLossUnsent (hold : Nat) : State :=
  { losingPower hold with
    line.losTimer := 50
    supply.powerLossWaiting := true
    overhead := { Overhead.reset with queue := [⟨0, .powerLoss 1⟩] } }

def wakeOver (b : Battery) : State :=
  { base with
    supply.state := .hold, supply.mainsPresent := false, supply.mainsSense := false, supply.battery := b
    supply.wakeWindow := some 0 }

def dormant (settle : Option Nat) : State :=
  { base with
    line := Line.reset, handset.allowance := 0
    supply := { base.supply with
      state := .dormant, mainsPresent := false, mainsSense := false, settle := settle, wakeReason := .none } }

/-- An off interval that has ended. -/
def someCadence : Cadence := ⟨[(40, 80), (10, 20)], 1, false, some 0⟩

def ringingAlone (allowance : Nat) : State :=
  { withP1 { ringingPort with unitHeld := false, cadence := some someCadence } ringing with handset.allowance := allowance }

def ringingPair (allowance : Nat) (skipped1 skipped2 : Bool) : State :=
  { ringing with handset := { ringing.handset with
      p1 := { ringingPort with unitHeld := false, cadence := some someCadence, skipped := skipped1 }
      p2 := { ringingPort with unitHeld := false, cadence := some someCadence, skipped := skipped2 }
      allowance := allowance } }

theorem witness_DormantIsEnteredAndLeft :
    (∀ h ∈ [1, 300], (losingPower h).powered = true ∧ (losingPower h).supply.powerLossHold = some h ∧
      (losingPower h).tester.claim = none) ∧
    (∀ h ∈ [0, 298], (powerLossSent h).powered = true ∧ (powerLossSent h).tester.claim = none ∧
      (powerLossSent h).supply.powerLossHold = some h ∧
      (powerLossSent h).overhead.sending = some ⟨0, .powerLoss 1, [], 0⟩ ∧
      (powerLossUnsent h).powered = true ∧ (powerLossUnsent h).tester.claim = none ∧
      (powerLossUnsent h).supply.powerLossHold = some h ∧ (powerLossUnsent h).line.state = .service ∧
      50 ≤ (powerLossUnsent h).line.losTimer) ∧
    ((losingPower 300).supply.powerLossHold = some 300 ∧ (losingPower 300).supply.powerLossWaiting = false) ∧
    (∀ b ∈ [Battery.low, .good], (wakeOver b).powered = true ∧ (wakeOver b).supply.state = .hold ∧
      (wakeOver b).supply.wakeWindow = some 0 ∧ (wakeOver b).supply.battery = b ∧ (wakeOver b).slots.allFree = true ∧
      (wakeOver b).handset.p1.state ≠ .ringing ∧ (wakeOver b).handset.p2.state ≠ .ringing ∧
      (wakeOver b).tester.claim = none) ∧
    ((dormant none).powered = true ∧ (dormant none).supply.state = .dormant ∧ (dormant none).supply.settle = none ∧
      (dormant none).supply.wakeSet.line = true ∧ (dormant none).supply.battery = .good) ∧
    ((dormant (some 0)).powered = true ∧ (dormant (some 0)).supply.state = .dormant ∧
      (dormant (some 0)).supply.settle.isSome = true ∧ (dormant (some 0)).supply.powerLossHold = none ∧
      (dormant (some 0)).supply.mainsPresent = false ∧ (dormant (some 0)).line.state = .off ∧
      (dormant (some 0)).line.enabled = true) ∧
    (∀ x ∈ [(0, false, false), (1, false, true), (1, true, false), (2, false, false)],
      let s := ringingPair x.1 x.2.1 x.2.2
      s.powered = true ∧ s.handset.p1.state = .ringing ∧ s.handset.p1.cadence = some someCadence ∧
      s.handset.p1.unitHeld = false ∧ s.handset.p2.state = .ringing ∧ s.handset.p2.cadence = some someCadence ∧
      s.handset.p2.unitHeld = false ∧ s.handset.allowance = x.1 ∧ s.handset.p1.skipped = x.2.1 ∧
      s.handset.p2.skipped = x.2.2) ∧
    (someCadence.on = false ∧ someCadence.timer = some 0 ∧ (ringingAlone 1).handset.p1.state = .ringing ∧
      (ringingAlone 1).handset.p2.state ≠ .ringing ∧ (ringingAlone 1).handset.p2.unitHeld = false) := by decide +kernel

def full : State := { svc with overhead := { Overhead.reset with queue := List.replicate 16 ⟨0, .swapAck⟩ } }

theorem witness_ReadsAreAnswered :
    (∀ v ∈ [home, oper], svc.powered = true ∧ channelFree v.ch svc = true) ∧
    (oper.ch = .operator ∧ 16 ≤ full.overhead.queue.length) ∧ (0 ≤ 0 ∧ 255 ≤ 255) ∧ (15 ≤ 15 ∧ 1 ≤ 16 ∧ 16 ≤ 16) ∧
    (∀ n ∈ [0, 1, 4294967295], n < 4294967296) ∧ (∀ n ∈ [1, 64], n ≤ 64) ∧ 506 ≤ reportLimit .operator ∧
    svc.archive.flash.length = 4 ∧ svc.archive.flash.all FlashBlock.wf = true ∧ svc.archive.program.isNone = true := by
  decide +kernel

theorem witness_MapAndThresholdsAreReplaced :
    (∀ v ∈ [home, oper], svc.powered = true ∧ channelFree v.ch svc = true) ∧
    ((List.replicate 12 65535).length = 12 ∧ ∀ x ∈ List.replicate 12 65535, x ≤ 65535) ∧
    svc.perf.thresholds.getD Counter.es.index 0 = 0 := by decide +kernel

/-- A tracker LOCKED with a downstream schedule in force, or a SET_PORT target in a state. -/
def quieted : State :=
  { svc with impulse := { lockedImpulse with down := some ⟨2000, 100, 2, 2100⟩ } }

def ringingCall : State := { ringing with overhead.nextPlace := 4 }

/-- The schedule in force has an outstanding one beside it, not yet sent or begun. -/
def outstanding (queue : List QueuedMsg) : State :=
  { quieted with
    impulse.downOut := some ⟨⟨2000, 900, 2, 900⟩, 20, 0, false⟩
    overhead := { Overhead.reset with queue := queue } }

/-- Both ports ring for one order. -/
def ringingBoth : State :=
  { ringing with handset.p2 := ringingPort, slots.s0 := { ringSlot with party := .set .both } }

/-- Port 1 is SEIZING; its SEIZE is still in the queue, or has begun transmission. -/
def seizing (queue : List QueuedMsg) : State :=
  { seized 100 14 with overhead := { Overhead.reset with queue := queue, nextPlace := 3 } }

theorem witness_SettingsAreWritten :
    (∀ v ∈ [home, oper], svc.powered = true ∧ channelFree v.ch svc = true) ∧ oper.ch = .operator ∧
    (∀ m ∈ [13, 24, 47], let x : Margins := { builtInMargins with m := m }; x.d < x.m ∧ x.m < x.u) ∧
    (∀ x ∈ [(0, 255), (255, 255)], x.1 ≤ x.2 ∧ x.2 ≤ 255) ∧
    (∀ x ∈ [ToneState.active, .masked], x ≠ .retired) ∧ (ToneFn.add ≠ .set ∧ (2 : Int) ≠ 0 ∧ (2 : Int) ≠ 1) ∧
    ({ svc with impulse.quietEnable := false } : State).impulse.quietEnable = false ∧
    (channelFree oper.ch quieted = true ∧ quieted.impulse.quietEnable = true ∧ quieted.impulse.state = .locked ∧
      quieted.line.state = .service ∧ quieted.impulse.down.isSome = true ∧ quieted.impulse.downOut = none ∧
      quieted.overhead.queue.length < 16 ∧ quieted.overhead.waitingLine = [] ∧ quieted.overhead.waitingSignal = []) ∧
    ((0 : Int) ≠ 1 ∧ (0 : Int) ≠ 2 ∧ (3 : Int) ≠ 1 ∧ (3 : Int) ≠ 2) ∧
    (∀ x ∈ [PortState.idle, .refused, .noService, .silent, .disabled, .testing],
      ((withP1 (portIn x) svc).port .p1).state = x ∧ channelFree oper.ch (withP1 (portIn x) svc) = true) ∧
    (calling.line.state = .service ∧ channelFree oper.ch calling = true ∧ calling.overhead.queue.length < 16 ∧
      (calling.port .p1).slot = some .s0 ∧ (calling.slot .s0).released = false ∧
      (calling.port .p1).state = .connected ∧ (calling.slot .s0).state = .active) ∧
    (channelFree oper.ch ringingCall = true ∧ (ringingCall.port .p1).slot = some .s0 ∧
      (ringingCall.slot .s0).released = false ∧ (ringingCall.port .p1).state = .ringing ∧
      (ringingCall.port .p1).order = some 9 ∧ (ringingCall.port (otherPort .p1)).state ≠ .ringing ∧
      ringingCall.overhead.waitingLine = [] ∧ ringingCall.overhead.waitingSignal = []) ∧
    (withP1 (portIn .disabled) svc).handset.p1.loop ≠ .onHook ∧
    (withP1 { PortRec.reset false with state := .disabled } svc).handset.p1.loop = .onHook ∧
    (List.replicate 8 true).length = 8 := by decide +kernel

/-- The forms of SET_QUIET with an outstanding schedule, and of SET_PORT on a SEIZING port and in a two-port ring. -/
theorem witness_SettingsAreWritten_inProgress :
    (∀ l ∈ [[⟨0, .quietSchedule 2000 20 0 2⟩], [⟨0, .swapAck⟩]], (outstanding l).powered = true ∧
      channelFree oper.ch (outstanding l) = true ∧ (outstanding l).impulse.quietEnable = true ∧
      (outstanding l).impulse.state = .locked ∧ (outstanding l).line.state = .service ∧
      (outstanding l).impulse.downOut = some ⟨⟨2000, 900, 2, 900⟩, 20, 0, false⟩ ∧ (outstanding l).overhead.queue.length < 16 ∧
      (outstanding l).overhead.waitingLine = [] ∧ (outstanding l).overhead.waitingSignal = []) ∧
    (outstanding [⟨0, .quietSchedule 2000 20 0 2⟩]).overhead.queue.all (fun q => isQuietSchedule q.msg) = true ∧
    (outstanding [⟨0, .swapAck⟩]).overhead.queue.all (fun q => !isQuietSchedule q.msg) = true ∧
    (∀ l ∈ [[⟨0, .seize .p1 .s0⟩], [⟨0, .swapAck⟩]], (seizing l).powered = true ∧
      channelFree oper.ch (seizing l) = true ∧ (seizing l).line.state = .service ∧ (seizing l).overhead.queue.length < 16 ∧
      (seizing l).overhead.waitingLine = [] ∧ (seizing l).overhead.waitingSignal = [] ∧
      ((seizing l).port .p1).slot = some .s0 ∧ ((seizing l).slot .s0).released = false ∧
      ((seizing l).port .p1).state = .seizing ∧ ((seizing l).slot .s0).seizing = true) ∧
    (seizing [⟨0, .seize .p1 .s0⟩]).overhead.queue.all (fun q => isSeize .s0 q.msg) = true ∧
    (seizing [⟨0, .swapAck⟩]).overhead.queue.all (fun q => !isSeize .s0 q.msg) = true ∧
    (∀ p ∈ [Port.p1, .p2], channelFree oper.ch ringingBoth = true ∧ (ringingBoth.port p).state = .ringing ∧
      (ringingBoth.port p).slot = some .s0 ∧ (ringingBoth.port p).order = some 9) := by decide +kernel

def archiveFailed : State := { base with archive.state := .error, archive.programFailed := true }

def storeOpen : State := { base with factory.isOpen := true }

/-- A line test running on the line, or a test of port 1. -/
def claiming (k : TestType) (p : Option Port) (s : State) : State :=
  { s with tester.claim := some ⟨k, p, .home, false, if p.isNone then some .wait else none, 50, false⟩ }

/-- The line states of LINE_CONTROL and RUN_TEST, each with the claim free, and with a test that takes no line. -/
theorem witness_ActionsAreTaken_line :
    (∀ v ∈ [home, oper], ∀ x ∈ [LineState.off, .handshake, .probe, .tables, .service, .wait, .test],
      channelFree v.ch (lineIn x) = true ∧ channelFree v.ch (claiming .portLeak (some .p1) (lineIn x)) = true ∧
      channelFree v.ch (claiming .lineLoop none (lineIn .test)) = true ∧ channelFree v.ch calling = true) ∧
    (∀ x ∈ [LineState.off, .handshake, .probe, .tables, .service, .wait, .test],
      (lineIn x).powered = true ∧ (lineIn x).line.state = x ∧ (lineIn x).supply.state = .full ∧
      (lineIn x).supply.powerLossHold = none ∧ (lineIn x).tester.claim = none ∧ (lineIn x).slots.allFree = true ∧
      (claiming .portLeak (some .p1) (lineIn x)).tester.claim.isSome = true) ∧
    (calling.line.state = .service ∧ calling.slots.allFree = false) ∧
    (({ lineIn .off with supply.state := .dormant } : State).supply.state = .dormant ∧
      channelFree .home { lineIn .off with supply.state := .dormant } = true) ∧
    ((claiming .lineLoop none (lineIn .test)).line.state = .test ∧
      (claiming .lineLoop none (lineIn .test)).tester.claim = some ⟨.lineLoop, none, .home, false, some .wait, 50, false⟩ ∧
      lineTest .lineLoop = true ∧ lineTest .portLeak = false) ∧
    (svc.perf.counters.getD 4 0 < 65535 ∧ 4 < svc.perf.counters.length) ∧
    (∀ p ∈ [Port.p1, .p2], ((dormant none).port p).state = .idle ∧ (dormant none).supply.state ≠ .full ∧
      channelFree .operator (dormant none) = true) ∧ (calling.port .p1).state ≠ .idle := by
  decide +kernel

theorem witness_ActionsAreTaken :
    (∀ v ∈ [home, oper], base.powered = true ∧ channelFree v.ch base = true ∧
      channelFree v.ch archiveFailed = true ∧ channelFree v.ch storeOpen = true) ∧
    archiveFailed.archive.state = .error ∧
    (∀ p ∈ [Port.p1, .p2], (base.port p).state = .idle) ∧ base.tester.claim = none ∧ base.supply.state = .full ∧
    base.mgmt.restart = none ∧
    (base.supply.state ≠ .dormant ∧ base.archive.state = .ready ∧ base.archive.blockSequence < 4294967295 ∧
      (base.archive.entry 3).state ≠ .current ∧ base.archive.table.length = 4 ∧ base.archive.flash.length = 4 ∧
      base.archive.pendingList = [] ∧ base.archive.current = some 0) ∧
    (∀ tone ∈ [48, 255], 48 ≤ tone ∧ tone ≤ 255 ∧ storeOpen.factory.isOpen = true ∧
      storeOpen.factory.programming = none ∧ storeOpen.factory.items[5]? = some .blank) := by decide +kernel

/-- A READ_STATUS with tag 0x0102, and a request of kind 0x7F, at the head of a channel's queue. -/
def queued (kind : Byte) : State :=
  { svc with
    mgmt.home.requests := [⟨[1#8, 2#8, kind, 0#8, 0#8], [1, 2, 3, 4, 5, 6]⟩]
    mgmt.operator.requests := List.replicate 3 ⟨[1#8, 2#8, kind, 0#8, 0#8], []⟩ }

def storing : State := { base with factory.programming := some ⟨5, .holdCeiling 100, oper, 0⟩ }

theorem witness_RequestsAreDispatched :
    (∀ n ∈ [5, 512], (queued 0x7F#8).powered = true ∧ (queued 0x7F#8).line.state = .service ∧
      5 ≤ (List.replicate n 0#8).length ∧ (List.replicate n 0#8).length ≤ 512 ∧
      (queued 0x7F#8).mgmt.operator.requests.length < 4) ∧
    (∀ ch ∈ [Channel.home, .operator], channelFree ch (queued 0x7F#8) = true ∧ channelFree ch (queued 0x01#8) = true ∧
      (((queued 0x7F#8).chan ch).requests.map fun q => knownKind (q.bytes.getD 2 0#8).toNat).head? = some false ∧
      (((queued 0x01#8).chan ch).requests.head?.map (·.bytes)) = some [1#8, 2#8, 0x01#8, 0#8, 0#8]) ∧
    (home.ch = .home ∧ channelFree .home svc = true) ∧
    (storing.powered = true ∧ storing.factory.programming = some ⟨5, .holdCeiling 100, oper, 0⟩ ∧
      5 < storing.factory.items.length) := by decide +kernel

/-! ## WellFormed: each check refuses a term that breaks it -/

theorem test_wellFormed_refuses_line_commands : ∀ c ∈ [
    Instr.cycleBoundary (List.replicate 224 0) 1 1, .receiveSymbol (List.replicate 224 0) [],
    .receiveSymbol [] (List.replicate 224 []), .receiveSymbol [] [List.replicate 13 true],
    .receivedMessageDiscarded 1#8 65536 [], .receivedMessageDiscarded 1#8 0 (List.replicate 513 0#8),
    .trainReply 2#8 [0#8] [] [0#8, 0#8], .trainReply 2#8 [0#8, 0#8] [] [0#8], .txTable [4#8] [] [0#8, 0#8],
    .txTable [4#8, 0#8, 0#8] [] [0#8], .entry [6#8, 0#8] [0#8, 0#8], .entry [6#8, 0#8, 0#8] [0#8], .rateOffer .tx 256 false 6 [(0, 0)], .rateOffer .tx 0 false 6 [],
    .rateOffer .tx 0 false 255 [(0, 0), (0, 0)], .rateOffer .tx 0 false 6 [(0, -129)],
    .rateOffer .tx 0 false 0 (List.replicate 224 (0, 0)),
    .rateAccept 256, .rateDecline 256, .swapOrder .tx 256 [⟨6, 0, 0⟩], .swapOrder .tx 0 [],
    .swapOrder .tx 0 (List.replicate 5 ⟨6, 0, 0⟩), .swapOrder .tx 0 [⟨256, 0, 0⟩], .swapOrder .tx 0 [⟨6, 256, 0⟩],
    .swapOrder .tx 0 [⟨6, 0, 128⟩], .swapReject 256, .toneHoldExpiry 256, .quietSchedule .tx 65536 0 0 1,
    .quietSchedule .tx 0 256 0 1, .quietSchedule .tx 0 0 40 1, .quietSchedule .tx 0 0 0 256, .ringTimerExpiry 65536,
    .release .s0 256, .ring .one 8 0, .ring .one 0 65536, .ringStop 65536, .mgmtRequest [1#8],
    .mgmtRequest (List.replicate 513 0#8), .homeFrameReceived (List.replicate 17 0#8) true],
    wellFormed c = false := by decide +kernel

/-- A value past the 4 signed bytes of a numeric argument. -/
def tooBig : Int := 2147483648

theorem test_wellFormed_refuses_requests : ∀ c ∈ [
    Instr.readStatus ⟨.home, 7, []⟩, .readLine ⟨.operator, 7, [1#8]⟩, .readImpulse ⟨.operator, 65536, []⟩,
    .readTones oper .rx .a tooBig 0, .readTones oper .rx .a 0 tooBig,
    .searchTones oper .rx ⟨.active, true, true, true, true, true, true, true⟩ tooBig, .readPort oper tooBig,
    .readIntervals oper tooBig 1, .readIntervals oper 0 tooBig, .readArchive oper tooBig 1, .readArchive oper 0 tooBig,
    .writeTones oper .rx tooBig 0 1 .cap .set 0, .writeTones oper .rx 0 tooBig 1 .cap .set 0,
    .writeTones oper .rx 0 0 tooBig .cap .set 0, .writeTones oper .rx 0 0 1 .cap .set tooBig,
    .lineControl ⟨.home, 7, []⟩ .enable, .setMargins oper tooBig 0 0 0, .setMargins oper 0 tooBig 0 0,
    .setMargins oper 0 0 tooBig 0, .setMargins oper 0 0 0 tooBig, .stepMargin ⟨.home, 7, []⟩ .up,
    .setHoldCeiling oper tooBig, .loadThresholds oper [1], .loadThresholds oper (List.replicate 11 tooBig),
    .setQuiet oper tooBig true, .setPort oper tooBig .enable, .setPortTiming oper tooBig 0 0 0 0,
    .setPortTiming oper 0 tooBig 0 0 0, .setPortTiming oper 0 0 tooBig 0 0, .setPortTiming oper 0 0 0 tooBig 0,
    .setPortTiming oper 0 0 0 0 tooBig, .loadCadences oper [], .loadCadences oper (List.replicate 8 [(tooBig, 0)]),
    .loadCadences oper (List.replicate 8 [(0, tooBig)]), .loadCadences oper (List.replicate 8 (List.replicate 256 (1, 1))),
    .setQueueMap oper [0], .setQueueMap oper (List.replicate 8 3), .setThresholds oper [0],
    .setThresholds oper (List.replicate 12 tooBig), .setRoutes oper .home [] true, .setArchiveThreshold oper 4,
    .eraseArchiveBlock oper tooBig, .setArchiveMode oper 2, .runTest oper 5 1 true, .runTest oper 0 tooBig true,
    .setTestLimits oper 5 0 0, .setTestLimits oper 0 tooBig 0, .setTestLimits oper 0 0 tooBig,
    .setWake ⟨.home, 7, []⟩ true true true true, .restart ⟨.home, 7, []⟩, .factoryOpen ⟨.home, 7, []⟩,
    .factoryProgram oper (.identity 4294967296 0), .factoryProgram oper (.identity 0 tooBig),
    .factoryProgram oper (.managementType tooBig), .factoryProgram oper (.thresholds [1]),
    .factoryProgram oper (.cadences []), .factoryProgram oper (.margins tooBig 0 0 0),
    .factoryProgram oper (.margins 0 tooBig 0 0), .factoryProgram oper (.margins 0 0 tooBig 0),
    .factoryProgram oper (.margins 0 0 0 tooBig), .factoryProgram oper (.holdCeiling tooBig)],
    wellFormed c = false := by decide +kernel

theorem test_wellFormed_takes : ∀ c ∈ [
    Instr.rateOffer .rx 255 true 33 (List.replicate 223 (12, -10)), .swapOrder .tx 0 (List.replicate 4 ⟨6, 12, 10⟩),
    .quietSchedule .tx 16000 255 39 4, .ring .both 7 65535, .readTones home .tx .active 0 255,
    .setQueueMap oper (List.replicate 8 2), .factoryProgram oper .unknown, .lossOfPower],
    wellFormed c = true := by decide +kernel

/-! ## The spec's worked values -/

/-- R193: POWER_ON on mains, with a GOOD battery, both loops open and a flash never erased, gives the reset state. -/
theorem test_powerOn_gives_reset : passes (.powerOn true .good false false) { unpowered with archive.flash := blankFlash }
    (· == State.reset) = true := by
  decide +kernel

/-- Section 1.5, "one upstream budget through a call and a shift": D and the committed bits of its rows. -/
theorem test_budget_example :
    ([(203, 0), (203, 1), (203, 2), (70, 2), (70, 1)].map fun x => ((budgetOf x.1 x.2).d, (budgetOf x.1 x.2).committed)) =
      [(24, 200), (22, 200), (20, 200), (3, 64), (5, 64)] := by decide

/-- R9's generator from 0xFFFF, most significant bit first: its published check value over the digits 1 to 9. -/
theorem test_crc16 : crc16 [0x31, 0x32, 0x33, 0x34, 0x35, 0x36, 0x37, 0x38, 0x39] = 0x29B1#16 := by decide +kernel

/-- The tones 40..45 of section 2.6's example: S, and cap 12 but for tone 44. -/
def passTones : List (Int × Nat) := [(140, 12), (100, 12), (60, 12), (200, 12), (180, 8), (75, 12)]

/-- Section 2.6, "one loading pass": bits and gains of tones 40..45, their total 33 and gain sum −26. -/
theorem test_loading_example :
    let bank := loadBank somePass 24 40 (passTones.map (·.1)) (passTones.map fun x => ⟨x.2, .active⟩)
    bank = [⟨7, -5⟩, ⟨4, -2⟩, ⟨0, 0⟩, ⟨12, -4⟩, ⟨8, -10⟩, ⟨2, -5⟩] ∧ bitTotal bank = 33 ∧ gainSum bank = -26 := by
  decide +kernel

/-- That bank active, every other tone MASKED and empty, with the measured S of section 2.7's example. -/
def lifting : State :=
  { svc with tones := { Tones.reset with
      rxA := List.replicate 7 ⟨0, 0⟩ ++ [⟨7, -5⟩, ⟨4, -2⟩, ⟨0, 0⟩, ⟨12, -4⟩, ⟨8, -10⟩, ⟨2, -5⟩] ++ List.replicate 210 ⟨0, 0⟩
      rxSet := List.replicate 7 ⟨12, .masked⟩ ++ [⟨12, .active⟩, ⟨12, .active⟩, ⟨12, .active⟩, ⟨12, .active⟩,
        ⟨8, .active⟩, ⟨12, .active⟩] ++ List.replicate 210 ⟨12, .masked⟩
      meas := List.replicate 7 ⟨0, 0⟩ ++ [⟨135, 0⟩, ⟨86, 0⟩, ⟨60, 0⟩, ⟨196, 0⟩, ⟨170, 0⟩, ⟨70, 0⟩]
        ++ List.replicate 210 ⟨0, 0⟩ } }

/-- Section 2.7, "a gain lift": one entry, tone 41 at 4 bits and gain +10. -/
theorem test_gain_lift_example : evaluateSwap lifting = some (41, [⟨41, 4, 10⟩]) := by decide +kernel

/-- Section 2.9, "a group write": caps 12, 4, 3, 2 and 0 less 3 are stored as 9, 0, 0, 0 and 0. -/
theorem test_group_write_example :
    passes (.writeTones home .rx 48 52 1 .cap .add (-3))
      { base with tones.rxSet := List.replicate 15 ⟨12, .active⟩ ++
          [⟨12, .active⟩, ⟨4, .active⟩, ⟨3, .active⟩, ⟨2, .active⟩, ⟨0, .active⟩] ++ List.replicate 203 ⟨12, .active⟩ }
      (fun t => ((t.tones.rxSet.drop 14).take 7).map (·.cap) == [12, 9, 0, 0, 0, 0, 12]) = true := by decide +kernel

/-- The tracker after the events at the given positions. -/
def tracked (l : List Nat) : Impulse := l.foldl (fun i pos => (i.event pos).1) Impulse.reset

/-- Section 4.5, "a fence locking at 1.2 s": the tracker's state, P and match count after each event. -/
theorem test_fence_example :
    ((List.range 6).map fun n =>
      let i := tracked ([502310, 507110, 511907, 516709, 521508].take n)
      (i.state, i.p, i.matchCount)) =
      [(.search, 0, 0), (.search, 0, 0), (.candidate, 4800, 0), (.candidate, 4800, 1), (.candidate, 4800, 2),
        (.locked, 4800, 3)] ∧ tolerance 4800 = 79 := by decide +kernel

/-- A restart at the boundary where a close is due, an interval of 900 s having ended there. -/
def restartAtClose : State :=
  { restarting with
    mgmt.restart := some ⟨.home, 0, 0⟩, time.intervalDue := true, time.uptime := 900
    perf := { Perf.reset with seconds := 900 } }

/-- R137: the restart's close is partial, no close is due after it, and the interval it begins is "also partial" at its
close by the boundary, 900 s long or not. -/
theorem test_restart_intervals_are_partial :
    passes .restartTakesEffect restartAtClose (fun t => !t.time.intervalDue && t.perf.seconds == 0 && t.perf.start == 900 &&
      t.perf.ring.map (·.partialFlag) == [true]) = true ∧
    (∀ n ∈ [899, 900], passes .intervalClose
      { svc with time.intervalDue := true, perf := { Perf.reset with seconds := n, begunByRestart := true } }
      (fun t => t.perf.ring.map (·.partialFlag) == [true] && !t.perf.begunByRestart) = true) ∧
    passes .intervalClose { svc with time.intervalDue := true, perf := { Perf.reset with seconds := 900 } }
      (fun t => t.perf.ring.map (·.partialFlag) == [false]) = true := by decide +kernel

/-- Section 5.2, "a rotary 3": at the make limit a CONNECTED port sends DIGIT with 3. -/
theorem test_digit_example :
    passes (.makeTimerExpiry .p1) (dialling .connected .offHook 3 (some 0)) (fun t =>
      t.overhead.queue.map (·.msg) == [.digit .p1 3] && (t.port .p1).lastDigit == some 3) = true := by decide +kernel

/-- Section 8.3, "eviction at 24 notices": a MAJOR notice evicts 104, is placed as 124 and carries lost-before 1. -/
theorem test_eviction_example :
    let n := (raise .line .major .trainingFailed [] { base with notices := fullNotices }).notices
    n.queue.length = 24 ∧ (n.queue.all fun e => e.notice.sequence != 104) = true ∧
    (n.queue.getLast?.map fun e => (e.notice.sequence, e.notice.lostBefore)) = some (124, 1) ∧ n.lost = 0 := by
  decide +kernel

/-- Section 7.5, "a backup upload": a seventh frame of 1500 bytes passes the 10240 mark and asserts flow pause. -/
theorem test_flow_pause_example :
    passes (.homeFrameReceived (someFrame 1500) true)
      { linked with data := { linked.data with bulk := List.replicate 6 (List.replicate 1500 0#8) } }
      (fun t => t.data.flowPause && fillOf t.data.bulk == 10500 && t.data.pauseTimer == some 10) = true := by decide +kernel

/-- An empty queue: the step answers a next state (log entry 1). -/
theorem test_step_idles : isNext (step State.reset) = true ∧ isNext (Sys2Proof.core.step Sys2Proof.core.reset) = true := by
  decide +kernel

/-! ## Handset ports: points of R83 and R93 -/

/-- An IDLE port whose loop is off-hook counts a pulse, and its make timer starts (R83: only the states of R90 and R99 do
not). -/
theorem test_idle_port_counts_pulses :
    passes (.debounceExpiry .p1) (withP1 { portIn .idle with loop := .brk, closed := true, brk := some 50 } svc)
      (fun t => t.handset.p1.pulses == 1 && t.handset.p1.make == some 0) = true := by decide +kernel

/-- Port 1's off-phase ends at this boundary and port 2's order was accepted after it. -/
def ringingLate : State :=
  { ringing with
    handset := { ringing.handset with
      p1 := { ringingPort with unitHeld := false, cadence := some ⟨[(40, 80)], 0, false, some 0⟩ }
      p2 := { ringingPort with unitHeld := false, order := some 10, slot := some .s1,
                               cadence := some ⟨[(40, 80)], 0, true, none⟩ }
      allowance := 2 } }

/-- R93: the first on-phase of port 2 begins at "the first cycle boundary after acceptance", not with port 1's phase end. -/
theorem test_late_order_waits_for_the_boundary :
    passes .cadencePhaseEnd ringingLate (fun t => t.handset.p2.cadence == ringingLate.handset.p2.cadence
      && !t.handset.p2.unitHeld && t.handset.p1.unitHeld) = true ∧
    passes (.cycleBoundary [] 0 0) ringingLate (fun t =>
      t.handset.p2.unitHeld && t.handset.p2.cadence == some ⟨[(40, 80)], 0, true, some 200⟩) = true := by decide +kernel

/-! ## Points of R1, R10 and R47 -/

/-- R1: the symbols of a cycle are numbered in HANDSHAKE too, so its middle is no boundary. -/
theorem test_handshake_symbols_are_numbered :
    passes (.receiveSymbol [] []) (lineIn .handshake)
      (fun t => t.time.symbolNo == 1 && t.time.symbolCounter == 0 && !t.atBoundary) = true := by decide +kernel

/-- R10: leaving SERVICE drops what the receiver has collected and leaves it in HUNT. -/
theorem test_receiver_stays_in_hunt :
    passes .noSignalTimeout { svc with line.losTimer := 50, framer.hunting := true, framer.window := [1, 2, 3] }
      (fun t => t.line.state == .wait && t.framer.hunting && t.framer.window == []) = true := by decide +kernel

/-- R47, R48: with the TX_TABLE taken, the end of the pass sends RX_TABLE (3 + 449 + 2 bytes) and then TABLES_READY (5 bytes). -/
theorem test_both_tables_messages_are_sent :
    passes (.loadingPassDone false) passOverTaken (fun t =>
      t.framer.trainOut.length == 459 && t.framer.trainOut.head? == some 0x03#8 &&
      t.framer.trainOut[454]? == some 0x05#8 && t.line.readySent) = true := by decide +kernel

/-! ## Points of R91 and R185 -/

/-- A port in REFUSED for 24 cycles: its tone is on for one cycle more (R91: 250 ms on). -/
def refusedPort : PortRec := { portIn .refused with toneTimer := some 5976 }

/-- R91: 8000 samples per second in WAIT too: the two symbols that come and the boundary pass 40 pairs to the codec. -/
theorem test_codec_gets_80_samples_a_cycle :
    passes (.receiveSymbol [] []) (withP1 refusedPort { lineIn .wait with time.symbolNo := 1 })
      (fun t => t.handset.p1.codec.length == 1 && t.handset.p2.codec.length == 1 && t.time.symbolNo == 2) = true ∧
    passes (.cycleBoundary [] 0 0) (withP1 refusedPort { lineIn .wait with time.symbolNo := 2 })
      (fun t => t.handset.p1.codec.length == 38 && t.handset.p1.toneTimer == some 5975) = true ∧
    localPair 2 refusedPort = Config.toneSamples 0 962 ∧ localPair 2 { refusedPort with toneTimer := some 5975 } = idlePair :=
  ⟨by decide +kernel, by decide +kernel, rfl, rfl⟩

/-- R156, R161, R185: the copy of POWER_LOSS goes before the older record that is not CRITICAL, where it suspends an erase and
where no block is CURRENT, and before the SERVICE_LOST that the entry to DORMANT raises after it. -/
theorem test_power_loss_copy_is_served_first :
    (let a : Archive := { waitingFor [someCopy, powerLossCopy] with state := .erasing, erase := some someErase }
     a.serve.program.map (fun p => p.record.copy) == some powerLossCopy && a.serve.state == .suspended &&
      a.serve.pendingList == [someCopy]) = true ∧
    (noCurrent [.bad, .full, .bad, .erased] .wrap [someCopy, powerLossCopy]).serve.program.map (fun p => p.record.copy) =
      some powerLossCopy ∧
    (waitingFor [powerLossCopy, someCopy]).serve.program.map (fun p => p.record.copy) = some powerLossCopy := by
  decide +kernel

end Sys2Proof.Tests
end

section
/-! SUPPORT. What most operations leave of the ranged values -/
namespace Sys2Proof.Machine

/-- The tables of the Tone Store whose values have a range, with the measurement table. -/
def Tones.tables (t : Tones) : Margins × List ToneRec × List ToneRec × List ToneRec × List ToneRec × List ToneSetting ×
    List ToneSetting × List Meas :=
  (t.margins, t.rxA, t.rxB, t.txA, t.txB, t.rxSet, t.txSet, t.meas)

/-- The values the law of ranges speaks of are in `t` those of `s`, or fewer; the measurement table is that of `s`. -/
structure RangesWithin (s t : State) : Prop where
  tables : t.tones.tables = s.tones.tables
  items : t.factory.items = s.factory.items
  programming : t.factory.programming.map (fun p => (p.value, p.via)) =
    s.factory.programming.map (fun p => (p.value, p.via))
  rxSwap : ∀ w, t.shifts.rxSwap = some w → ∃ v, s.shifts.rxSwap = some v ∧ v.entries = w.entries
  txSwap : ∀ w, t.shifts.txSwap = some w → ∃ v, s.shifts.txSwap = some v ∧ v.entries = w.entries
  allowance : t.handset.allowance = s.handset.allowance
  supply : t.supply.state = s.supply.state
  unit1 : t.handset.p1.unitHeld = true → s.handset.p1.unitHeld = true
  unit2 : t.handset.p2.unitHeld = true → s.handset.p2.unitHeld = true
  buffer : bufferFill t.data.buffer ≤ bufferFill s.data.buffer
  home : t.mgmt.home.responses.length ≤ s.mgmt.home.responses.length
  operator : t.mgmt.operator.responses.length ≤ s.mgmt.operator.responses.length

theorem RangesWithin.refl (s : State) : RangesWithin s s :=
  ⟨rfl, rfl, rfl, fun w h => ⟨w, h, rfl⟩, fun w h => ⟨w, h, rfl⟩, rfl, rfl, id, id, le_rfl, le_rfl, le_rfl⟩

/-- The parts of a state that the law of ranges reads. -/
def State.ranged (s : State) :=
  (s.tones.tables, s.factory, s.shifts.rxSwap, s.shifts.txSwap, s.handset.allowance, s.supply.state,
    s.handset.p1.unitHeld, s.handset.p2.unitHeld, s.data.buffer, s.mgmt.home.responses, s.mgmt.operator.responses)

theorem RangesWithin.same {s t : State} (h : t.ranged = s.ranged) : RangesWithin s t := by
  simp only [State.ranged, Prod.mk.injEq] at h
  obtain ⟨e1, e2, e3, e4, e5, e6, e7, e8, e9, e10, e11⟩ := h
  exact ⟨e1, by rw [e2], by rw [e2], fun w h => ⟨w, e3 ▸ h, rfl⟩, fun w h => ⟨w, e4 ▸ h, rfl⟩, e5, e6, e7 ▸ id, e8 ▸ id,
    by rw [e9], by rw [e10], by rw [e11]⟩

theorem RangesWithin.trans {s t u : State} (h : RangesWithin s t) (k : RangesWithin t u) : RangesWithin s u where
  tables := k.tables.trans h.tables
  items := k.items.trans h.items
  programming := k.programming.trans h.programming
  rxSwap w hw := by
    obtain ⟨v, hv, e⟩ := k.rxSwap w hw
    obtain ⟨x, hx, e'⟩ := h.rxSwap v hv
    exact ⟨x, hx, e'.trans e⟩
  txSwap w hw := by
    obtain ⟨v, hv, e⟩ := k.txSwap w hw
    obtain ⟨x, hx, e'⟩ := h.txSwap v hv
    exact ⟨x, hx, e'.trans e⟩
  allowance := k.allowance.trans h.allowance
  supply := k.supply.trans h.supply
  unit1 := h.unit1 ∘ k.unit1
  unit2 := h.unit2 ∘ k.unit2
  buffer := k.buffer.trans h.buffer
  home := k.home.trans h.home
  operator := k.operator.trans h.operator

theorem RangesWithin.after {s t u : State} (k : RangesWithin t u) (h : t.ranged = s.ranged) : RangesWithin s u :=
  (RangesWithin.same h).trans k

theorem unit_le {a b : Bool} (h : b = true → a = true) : (if b then 1 else 0) ≤ (if a then 1 else 0) := by
  cases b <;> simp_all

theorem RangesWithin.units {s t : State} (w : RangesWithin s t) : unitsHeld t ≤ unitsHeld s :=
  Nat.add_le_add (unit_le w.unit1) (unit_le w.unit2)

theorem RangesWithin.responses {s t : State} (w : RangesWithin s t) (ch : Channel) :
    (t.chan ch).responses.length ≤ (s.chan ch).responses.length := by
  cases ch
  · exact w.home
  · exact w.operator

/-- The law of ranges stays where nothing is added to what it speaks of. -/
theorem RangeLaw.within {s t : State} (h : RangeLaw s) (w : RangesWithin s t) : RangeLaw t := by
  have tables := w.tables
  simp only [Tones.tables, Prod.mk.injEq] at tables
  obtain ⟨em, e1, e2, e3, e4, e5, e6, -⟩ := tables
  have programmed : ∀ p, t.factory.programming = some p →
      ∃ q, s.factory.programming = some q ∧ q.value = p.value ∧ q.via = p.via := by
    intro p hp
    have e := w.programming
    rw [hp] at e
    obtain ⟨q, hq, e⟩ := Option.map_eq_some_iff.mp e.symm
    exact ⟨q, hq, (Prod.mk.inj e).1, (Prod.mk.inj e).2⟩
  exact {
    margins := em ▸ h.margins
    items := w.items ▸ h.items
    programming := fun p hp => by
      obtain ⟨q, hq, e, -⟩ := programmed p hp
      exact e ▸ h.programming q hq
    rxA := e1 ▸ h.rxA
    rxB := e2 ▸ h.rxB
    txA := e3 ▸ h.txA
    txB := e4 ▸ h.txB
    rxSwap := fun x hx => by
      obtain ⟨v, hv, e⟩ := w.rxSwap x hx
      exact e ▸ h.rxSwap v hv
    txSwap := fun x hx => by
      obtain ⟨v, hv, e⟩ := w.txSwap x hx
      exact e ▸ h.txSwap v hv
    rxCaps := e5 ▸ h.rxCaps
    txCaps := e6 ▸ h.txCaps
    allowance := by rw [w.allowance, w.supply, h.allowance]
    units := w.allowance ▸ w.units.trans h.units
    buffer := w.buffer.trans h.buffer
    homeList := w.home.trans h.homeList
    operatorList := w.operator.trans h.operatorList
    carried := fun p hp => by
      obtain ⟨q, hq, -, e⟩ := programmed p hp
      exact e ▸ (w.responses q.via.ch).trans (h.carried q hq) }

/-! ## Notices and counts -/

theorem raise_within (cls : NoticeClass) (sev : Severity) (code : NoticeCode) (ps : List Int) (s : State) :
    RangesWithin s (raise cls sev code ps s) := by
  obtain ⟨a, n, e⟩ := raise_frame cls sev code ps s
  rw [e]; exact .same rfl

theorem returnNotice_within (o : Outlet) (x : Notice) (s : State) : RangesWithin s (returnNotice o x s) := by
  obtain ⟨n, e⟩ := returnNotice_frame o x s
  rw [e]; exact .same rfl

theorem count_within (c : Counter) (s : State) : RangesWithin s (count c s) := by
  obtain ⟨p, a, n, e⟩ := count_frame c s
  rw [e]; exact .same rfl

/-! ## The overhead channel -/

@[simp] theorem untake_length (r : Response) (l : List ListedResponse) : (untake r l).length = l.length := by
  unfold untake
  split <;> simp

theorem giveBack_within (m : Msg) (s : State) : RangesWithin s (giveBack m s) := by
  unfold giveBack
  split
  · exact returnNotice_within .overhead _ s
  · exact { RangesWithin.refl _ with operator := (untake_length _ _).le }
  · exact .same rfl

theorem waitOutside_within (m : Msg) (s : State) : RangesWithin s (waitOutside m s) := by
  obtain ⟨o, e⟩ := waitOutside_frame m s
  rw [e]; exact .same rfl

theorem offer_within (m : Msg) (s : State) : RangesWithin s (offer m s) := by
  unfold offer
  split
  · exact .same rfl
  · split
    · exact waitOutside_within m s
    · split
      · exact .same rfl
      · split
        · exact (giveBack_within _ _).after rfl
        · exact waitOutside_within m s

theorem takeResponse_within {s t : State} (h : takeResponse s = some t) : RangesWithin s t := by
  unfold takeResponse at h
  split at h
  · split at h
    · cases h
      exact { RangesWithin.refl _ with operator := (List.length_set ..).le }
    · cases h
  · cases h

theorem takeNotice_within {s t : State} (h : takeNotice s = some t) : RangesWithin s t := by
  obtain ⟨o, n, rfl⟩ := takeNotice_frame s t h
  exact .same rfl

theorem fillOne_within {s t : State} (h : fillOne s = some t) : RangesWithin s t := by
  unfold fillOne at h
  split at h
  · cases h
  · split at h
    · cases h; exact .same rfl
    · cases h; exact .same rfl
    · split at h
      · rename_i hu
        cases h; exact takeResponse_within hu
      · exact takeNotice_within h

theorem fillRooms_within (n : Nat) (s : State) : RangesWithin s (fillRooms n s) := by
  induction n generalizing s with
  | zero => exact .same rfl
  | succ n ih =>
    unfold fillRooms
    split
    · rename_i ht
      exact (fillOne_within ht).trans (ih _)
    · exact .same rfl

theorem arbitrate_within (s : State) : RangesWithin s (arbitrate s) := by
  obtain ⟨o, e⟩ := arbitrate_frame s
  rw [e]; exact .same rfl

theorem stopOverhead_within (s : State) : RangesWithin s (stopOverhead s) := by
  unfold stopOverhead
  dsimp only
  split
  · split
    · split
      · exact .same rfl
      · exact (giveBack_within _ _).after rfl
    · exact .same rfl
  · exact .same rfl

/-! ## The home link -/

theorem kickHome_within (s : State) : RangesWithin s (kickHome s) := by
  unfold kickHome
  split
  · split
    · exact .same rfl
    · split
      · exact .same rfl
      · exact .same rfl
  · exact .same rfl

theorem duePause_within (p : Pause) (s : State) : RangesWithin s (duePause p s) := (kickHome_within _).after rfl

theorem judgeFlow_within (s : State) : RangesWithin s (judgeFlow s) := by
  unfold judgeFlow
  dsimp only
  split
  · split
    · exact (duePause_within _ _).after rfl
    · exact .same rfl
  · split
    · split
      · exact (duePause_within _ _).after rfl
      · exact .same rfl
    · exact .same rfl

theorem restartDoneSent_within (r : Response) (s : State) : RangesWithin s (restartDoneSent r s) := by
  unfold restartDoneSent
  split
  · split
    · exact .same rfl
    · exact .same rfl
  · exact .same rfl

/-! ## Ports and slots -/

/-- A change of a port record that takes no ring unit. -/
theorem onPort_within (p : Port) (f : PortRec → PortRec) (s : State)
    (h : (f (s.port p)).unitHeld = true → (s.port p).unitHeld = true) : RangesWithin s (onPort p f s) := by
  cases p
  · exact { RangesWithin.refl _ with unit1 := h }
  · exact { RangesWithin.refl _ with unit2 := h }

theorem onPorts_within (f : PortRec → PortRec) (s : State) (h : ∀ r, (f r).unitHeld = true → r.unitHeld = true) :
    RangesWithin s (onPorts f s) :=
  (onPort_within .p1 f s (h _)).trans (onPort_within .p2 f _ (h _))

theorem onSlot_within (k : Slot) (f : SlotRec → SlotRec) (s : State) : RangesWithin s (onSlot k f s) := by
  obtain ⟨x, e⟩ := onSlot_frame k f s
  rw [e]; exact .same rfl

theorem markReleased_within (k : Slot) (s : State) : RangesWithin s (markReleased k s) := onSlot_within _ _ _

theorem grant_within (use : SlotUse) (party : SlotParty) (order : Option Nat) (s : State) :
    RangesWithin s (grant use party order s) :=
  (onSlot_within _ _ s).trans ((count_within _ _).after rfl)

theorem admitPort_within (p : Port) (s : State) : RangesWithin s (admitPort p s) := by
  unfold admitPort
  split
  · exact (grant_within _ _ _ s).trans ((onPort_within _ _ _ id).trans (offer_within _ _))
  · exact (count_within _ s).trans (onPort_within _ _ _ (by nofun))

theorem requestCall_within (p : Port) (s : State) : RangesWithin s (requestCall p s) := by
  unfold requestCall
  split
  · exact onPort_within _ _ _ id
  · exact admitPort_within p s

theorem judgeHeld_within (p : Port) (s : State) : RangesWithin s (judgeHeld p s) := by
  unfold judgeHeld
  split
  · exact admitPort_within p s
  · exact .same rfl

theorem takeWake_within (why : WakeReason) (s : State) : RangesWithin s (takeWake why s) := by
  unfold takeWake
  split
  · exact .same rfl
  · exact .same rfl

theorem reportPortWake_within (p : Port) (s : State) : RangesWithin s (reportPortWake p s) := by
  unfold reportPortWake
  dsimp only
  split
  · split
    · exact (onPort_within _ _ _ id).trans (takeWake_within _ _)
    · exact onPort_within _ _ _ id
  · exact .same rfl

theorem offHookInIdle_within (p : Port) (s : State) : RangesWithin s (offHookInIdle p s) := by
  unfold offHookInIdle
  split
  · exact requestCall_within p s
  · exact (onPort_within _ _ _ (by nofun)).trans (reportPortWake_within p _)

theorem idleThenLoop_within (p : Port) (s : State) : RangesWithin s (idleThenLoop p s) := by
  unfold idleThenLoop
  dsimp only
  split
  · exact (onPort_within _ _ _ (by nofun)).trans (offHookInIdle_within p _)
  · exact onPort_within _ _ _ (by nofun)

theorem withdraw_within (p : Msg → Bool) (s : State) : RangesWithin s (withdraw p s) := .same rfl

theorem releaseWith_within (k : Slot) (why : ReleaseReason) (s : State) : RangesWithin s (releaseWith k why s) := by
  unfold releaseWith
  dsimp only
  split
  · exact .same rfl
  · split
    · split
      · exact (withdraw_within _ s).trans (markReleased_within _ _)
      · exact (onSlot_within _ _ s).trans ((markReleased_within _ _).trans (offer_within _ _))
    · exact (markReleased_within _ s).trans (offer_within _ _)

theorem portOnHook_within (p : Port) (s : State) : RangesWithin s (portOnHook p s) := by
  unfold portOnHook
  dsimp only
  split
  any_goals exact .same rfl
  any_goals exact onPort_within _ _ _ (by nofun)
  all_goals
    split
    · exact (releaseWith_within _ _ s).trans (onPort_within _ _ _ (by nofun))
    · exact onPort_within _ _ _ (by nofun)

theorem handItem_within (p : Port) (x : DialItem) (s : State) : RangesWithin s (handItem p x s) := by
  unfold handItem
  split
  · exact offer_within _ s
  · refine onPort_within _ _ _ fun h => ?_
    split at h
    · exact h
    · exact h
  · exact .same rfl

theorem completeDigit_within (p : Port) (s : State) : RangesWithin s (completeDigit p s) := by
  unfold completeDigit
  dsimp only
  have stopped := onPort_within p (fun r => { r with pulses := 0, make := none }) s id
  split
  · exact stopped
  · split
    · exact stopped.trans ((onPort_within _ _ _ id).trans (handItem_within _ _ _))
    · exact stopped.trans (onPort_within _ _ _ id)

theorem sendDigits_within (p : Port) (l : List DialItem) (s : State) : RangesWithin s (sendDigits p l s) := by
  induction l generalizing s with
  | nil => exact .same rfl
  | cons x rest ih => exact (handItem_within p x s).trans (ih _)

theorem endRinging_unit (k : Slot) (r : PortRec) (h : (endRinging k r).unitHeld = true) : r.unitHeld = true := by
  unfold endRinging at h
  split at h
  · cases h
  · exact h

theorem endOrder_within (k : Slot) (s : State) : RangesWithin s (endOrder k s) :=
  (onPorts_within _ s (endRinging_unit k)).trans (markReleased_within k _)

theorem ringTrip_within (p : Port) (s : State) : RangesWithin s (ringTrip p s) := by
  unfold ringTrip
  dsimp only
  split
  · split
    · exact .same rfl
    · split
      · exact (onSlot_within _ _ s).trans ((onPort_within _ _ _ (by nofun)).trans ((onPort_within _ _ _ (by nofun)).trans
          (offer_within _ _)))
      · exact (onSlot_within _ _ s).trans ((onPort_within _ _ _ (by nofun)).trans (offer_within _ _))
  · exact .same rfl

theorem localVoice_within (s : State) : RangesWithin s (localVoice s) := .same rfl

theorem restOfVoice_within (s : State) : RangesWithin s (restOfVoice s) := by
  rcases restOfVoice_frame s with e | e <;> rw [e] <;> exact .same rfl

theorem shed_within (s : State) : RangesWithin s (shed s) := by
  unfold shed
  split
  · exact .same rfl
  · dsimp only
    refine .trans ?_ ((count_within _ _).trans (raise_within _ _ _ _ _))
    split
    · exact (releaseWith_within _ _ s).trans (endOrder_within _ _)
    · split
      · exact (releaseWith_within _ _ s).trans (onPort_within _ _ _ (by nofun))
      · exact releaseWith_within _ _ s

theorem passRounds_within (p : Pass) (n v : Nat) (s : State) : RangesWithin s (passRounds p n v s).1 := by
  induction v generalizing n s with
  | zero => exact .same rfl
  | succ v ih =>
    unfold passRounds
    split
    · exact .same rfl
    · exact (shed_within s).trans (ih _ _)

theorem freeAllSlots_within (s : State) : RangesWithin s (freeAllSlots s) := .same rfl

theorem lineLost_unit (r : PortRec) (h : r.lineLost.unitHeld = true) : r.unitHeld = true := by
  unfold PortRec.lineLost at h
  split at h
  any_goals cases h
  exact h

theorem classifySecond_within (s : State) : RangesWithin s (classifySecond s) := by
  unfold classifySecond
  dsimp only
  split
  · split
    · exact ((count_within _ _).trans (count_within _ _)).after rfl
    · exact (count_within _ _).after rfl
  · split
    · exact (count_within _ _).after rfl
    · exact .same rfl

theorem requestPass_within (training : Bool) (s : State) : RangesWithin s (requestPass training s) := by
  unfold requestPass
  split
  · exact .same rfl
  · exact .same rfl

/-! ## The archive and the line -/

theorem rotate_within (s : State) : RangesWithin s (rotate s) := by
  unfold rotate
  dsimp only
  split
  · exact .same rfl
  · split
    · exact .same rfl
    · split
      · split
        · exact .same rfl
        · exact .same rfl
      · split
        · split
          · exact .same rfl
          · exact .same rfl
        · split
          · exact .same rfl
          · exact (raise_within _ _ _ _ _).after rfl

theorem archiveReady_within (s : State) : RangesWithin s (archiveReady s) := (rotate_within _).after rfl

theorem abortErase_within (s : State) : RangesWithin s (abortErase s) := by
  unfold abortErase
  split
  · exact .same rfl
  · dsimp only
    split
    · exact .same rfl
    · exact (archiveReady_within _).after rfl

theorem endAttempt_within (s : State) : RangesWithin s (endAttempt s) := .same rfl

theorem enterHandshake_within (s : State) : RangesWithin s (enterHandshake s) := .same rfl

theorem leaveOff_within (s : State) : RangesWithin s (leaveOff s) := .same rfl

theorem failAttempt_within (why : TrainFail) (s : State) : RangesWithin s (failAttempt why s) :=
  (raise_within _ _ _ _ _).after rfl

theorem closeSecond_within (s : State) : RangesWithin s (closeSecond s) := by
  unfold closeSecond
  split
  · exact classifySecond_within s
  · exact .same rfl

/-- The state whose line's records, ports, framer, tracker and shifts `leaveServiceTo` then sets: SERVICE_LOST raised, the
second closed, RETRAINS counted, the slots freed and the overhead channel stopped (R55). -/
def beforeLoss (why : LossReason) (s : State) : State :=
  let t := closeSecond (raise .line .major .serviceLost [(why.code : Int)] s)
  stopOverhead (freeAllSlots (if why.countsRetrain then count .retrains t else t))

theorem leaveServiceTo_eq (why : LossReason) (next : LineState) (s : State) :
    leaveServiceTo why next s =
      let t := beforeLoss why s
      { t with
        line := t.line.afterService why next
        handset := { t.handset with p1 := t.handset.p1.lineLost, p2 := t.handset.p2.lineLost }
        framer := { t.framer with
          rx := t.framer.rx.stopped, tx := t.framer.tx.stopped, up := .boundary, window := []
          lineOut := .silent, lineGains := [] }
        impulse := t.impulse.stopped
        tones.lineMargin := 0
        loader := ⟨t.loader.running.map (fun p => { p with ignored := true }), t.loader.waiting⟩
        shifts := ⟨{ t.shifts.rx with phase := .idle, supplyPending := false, holdOff := none }, none, none, none, []⟩
        supply.powerLossWaiting := false } := rfl

theorem beforeLoss_within (why : LossReason) (s : State) : RangesWithin s (beforeLoss why s) := by
  have closed := (raise_within .line .major .serviceLost [(why.code : Int)] s).trans (closeSecond_within _)
  refine RangesWithin.trans ?_ ((freeAllSlots_within _).trans (stopOverhead_within _))
  split
  · exact closed.trans (count_within _ _)
  · exact closed

theorem leaveServiceTo_within (why : LossReason) (next : LineState) (s : State) :
    RangesWithin s (leaveServiceTo why next s) := by
  refine (beforeLoss_within why s).trans ?_
  rw [leaveServiceTo_eq]
  exact { RangesWithin.refl _ with rxSwap := nofun, txSwap := nofun, unit1 := lineLost_unit _, unit2 := lineLost_unit _ }

theorem abortClaim_within (c : Claim) (s : State) : RangesWithin s (abortClaim c s) :=
  (raise_within _ _ _ _ _).after rfl

theorem giveLineBack_within (c : Claim) (s : State) : RangesWithin s (giveLineBack c s) := by
  unfold giveLineBack
  split
  · split
    · exact leaveOff_within s
    · exact .same rfl
  · exact .same rfl
  · exact enterHandshake_within s
  · exact (enterHandshake_within _).after rfl
  · exact .same rfl

theorem givePortBack_within (c : Claim) (s : State) : RangesWithin s (givePortBack c s) := by
  unfold givePortBack
  split
  · exact idleThenLoop_within _ s
  · exact .same rfl

theorem abortTest_within (s : State) : RangesWithin s (abortTest s) := by
  unfold abortTest
  split
  · exact (abortClaim_within _ s).trans ((giveLineBack_within _ _).trans (givePortBack_within _ _))
  · exact .same rfl

theorem abortLineTest_within (s : State) : RangesWithin s (abortLineTest s) := by
  unfold abortLineTest
  split
  · split
    · exact abortClaim_within _ s
    · exact .same rfl
  · exact .same rfl

theorem lineToOff_within (why : LossReason) (s : State) : RangesWithin s (lineToOff why s) := by
  unfold lineToOff
  split
  · exact leaveServiceTo_within _ _ s
  · exact .same rfl
  · exact (endAttempt_within s).trans ((abortLineTest_within _).trans (.same rfl))

theorem emptyQueues_within (s : State) : RangesWithin s (emptyQueues s) := (judgeFlow_within _).after rfl

theorem wakeIfReturning_within (s : State) : RangesWithin s (wakeIfReturning s) := by
  unfold wakeIfReturning
  split
  · exact takeWake_within _ s
  · exact .same rfl

theorem supplyShiftDue_within (s : State) : RangesWithin s (supplyShiftDue s) := by
  unfold supplyShiftDue
  split
  · exact .same rfl
  · exact .same rfl

theorem awaken_within (s : State) : RangesWithin s (awaken s) := by
  unfold awaken
  split
  · exact (leaveOff_within s).trans (rotate_within _)
  · exact rotate_within s

theorem powerLossSequence_within (s : State) : RangesWithin s (powerLossSequence s) :=
  (offer_within _ s).trans ((raise_within _ _ _ _ _).trans (.same rfl))

end Sys2Proof.Machine
end

section
namespace Sys2Proof.Machine

theorem offerOverheadResponses_within (n : Nat) (s : State) : RangesWithin s (offerOverheadResponses n s) := by
  induction n generalizing s with
  | zero => exact .refl s
  | succ n ih =>
    unfold offerOverheadResponses
    split
    · split
      · rename_i ht
        exact (takeResponse_within ht).trans (ih _)
      · exact .refl s
    · exact .refl s

/-! ## The ring allowance -/

/-- A port gives its unit up when more are held than allowed (R96). -/
theorem dropUnit_within (n : Nat) (p : Port) (s : State) :
    RangesWithin s (if n < unitsHeld s ∧ (s.port p).unitHeld then
      onPort p (fun r => { r with unitHeld := false, skipped := true }) s else s) := by
  split
  · exact onPort_within _ _ _ (by nofun)
  · exact .refl s

theorem setAllowance_within (n : Nat) (s : State) :
    RangesWithin { s with handset.allowance := n } (setAllowance n s) :=
  (dropUnit_within n .p2 _).trans (dropUnit_within n .p1 _)

theorem setAllowance_units (n : Nat) (s : State) : unitsHeld (setAllowance n s) ≤ n := by
  cases h1 : s.handset.p1.unitHeld <;> cases h2 : s.handset.p2.unitHeld <;> rcases n with _ | _ | n <;>
    simp [setAllowance, unitsHeld, onPort, State.port, State.setPort, h1, h2]

theorem RangesWithin.withAllowance {s t : State} (w : RangesWithin s t) (n : Nat) :
    RangesWithin { s with handset.allowance := n } { t with handset.allowance := n } := { w with allowance := rfl }

/-- The allowance follows a change of the supply state (R96). -/
theorem setAllowance_ranges {s t : State} {k : SupplyState} (h : RangeLaw s)
    (w : RangesWithin { s with supply.state := k } t) : RangeLaw (setAllowance (allowanceOf k) t) := by
  have v := (w.withAllowance (allowanceOf k)).trans (setAllowance_within (allowanceOf k) t)
  have u : RangesWithin s { setAllowance (allowanceOf k) t with
      supply := s.supply, handset.allowance := s.handset.allowance } := { v with allowance := rfl, supply := rfl }
  exact { h.within u with
    allowance := v.allowance.trans (congrArg allowanceOf v.supply.symm)
    units := (setAllowance_units _ _).trans v.allowance.ge }

theorem enterHold_ranges {s : State} (h : RangeLaw s) : RangeLaw (enterHold s) :=
  ((setAllowance_ranges (k := .hold) h (.refl _)).within (abortTest_within _)).within (supplyShiftDue_within _)

theorem enterFull_ranges {s : State} (h : RangeLaw s) : RangeLaw (enterFull s) := by
  refine RangeLaw.within ?_ (supplyShiftDue_within _)
  exact setAllowance_ranges (k := .full) h (.same rfl)

/-- What follows the move of the ring allowance to 0 at the entry to DORMANT (R184). -/
theorem afterAllowance_within (s : State) : RangesWithin s (wakeIfReturning (emptyQueues (abortErase (abortTest s)))) :=
  (abortTest_within s).trans ((abortErase_within _).trans ((emptyQueues_within _).trans (wakeIfReturning_within _)))

/-- The supply record as the entry to DORMANT leaves it (R184). -/
def Supply.asleep (p : Supply) : Supply :=
  { p with state := .dormant, settle := none, wakeWindow := none, powerLossHold := none, powerLossWaiting := false }

theorem enterDormant_eq (s : State) :
    enterDormant s = wakeIfReturning (emptyQueues (abortErase (abortTest
      (setAllowance 0 (lineToOff .dormant { s with supply := s.supply.asleep }))))) := rfl

theorem lineToOff_asleep_within (s : State) :
    RangesWithin { s with supply.state := .dormant } (lineToOff .dormant { s with supply := s.supply.asleep }) :=
  (lineToOff_within _ _).after rfl

/-- The entry to DORMANT but for the supply state and the allowance (R184). -/
theorem enterDormant_within (s : State) :
    RangesWithin { s with supply.state := .dormant, handset.allowance := 0 } (enterDormant s) := by
  rw [enterDormant_eq]
  exact ((lineToOff_asleep_within s).withAllowance 0).trans
    ((setAllowance_within 0 (lineToOff .dormant { s with supply := s.supply.asleep })).trans (afterAllowance_within _))

theorem enterDormant_ranges {s : State} (h : RangeLaw s) : RangeLaw (enterDormant s) :=
  (setAllowance_ranges (k := .dormant) h (lineToOff_asleep_within s)).within (afterAllowance_within _)

theorem dormancyCheck_ranges {s : State} (h : RangeLaw s) : RangeLaw (dormancyCheck s) := by
  unfold dormancyCheck
  split
  · exact enterDormant_ranges h
  · exact h

theorem powerLossCheck_ranges {s : State} (h : RangeLaw s) : RangeLaw (powerLossCheck s) := by
  unfold powerLossCheck
  split
  · split
    · exact enterDormant_ranges h
    · exact h
  · exact h

theorem leaveService_ranges {s : State} (h : RangeLaw s) (why : LossReason) (next : LineState) :
    RangeLaw (leaveService why next s) :=
  powerLossCheck_ranges (dormancyCheck_ranges (h.within (leaveServiceTo_within why next s)))

/-! ## The local timebase -/

/-- Half a millisecond before the power-loss hold is judged (R185). -/
def halfTicked (s : State) : State :=
  let t := { s with
    archive := s.archive.tick
    factory := { s.factory with programming := s.factory.programming.map fun p => { p with left := p.left - 1 } }
    supply.powerLossHold := tickDown s.supply.powerLossHold }
  if s.time.halfMs = 0 then { t with time.halfMs := 1 }
    else { onPorts PortRec.tick t with supply := t.supply.tick, time.halfMs := 0 }

theorem halfTick_eq (s : State) : halfTick s = powerLossCheck (halfTicked s) := rfl

theorem halfTicked_within (s : State) : RangesWithin s (halfTicked s) := by
  have ticked : (s.factory.programming.map fun p => { p with left := p.left - 1 : Programming }).map
      (fun p => (p.value, p.via)) = s.factory.programming.map fun p => (p.value, p.via) := by
    cases s.factory.programming <;> rfl
  unfold halfTicked
  dsimp only
  split
  · exact { RangesWithin.refl s with programming := ticked }
  · exact { RangesWithin.refl s with programming := ticked }

theorem halfTick_ranges {s : State} (h : RangeLaw s) : RangeLaw (halfTick s) := by
  rw [halfTick_eq]
  exact powerLossCheck_ranges (h.within (halfTicked_within s))

theorem advance_ranges {s : State} (n : Nat) (h : RangeLaw s) : RangeLaw (advance n s) := by
  induction n generalizing s with
  | zero => exact h
  | succ n ih => exact ih (halfTick_ranges h)

theorem advanceMs_ranges {s : State} (n : Nat) (h : RangeLaw s) : RangeLaw (advanceMs n s) := advance_ranges _ h

theorem advanceTo_ranges {s : State} (n : Nat) (h : RangeLaw s) : RangeLaw (advanceTo n s) := advance_ranges _ h

theorem powerLossCheck_programming (s : State) :
    (powerLossCheck s).factory.programming.map (fun p => (p.value, p.via)) =
      s.factory.programming.map fun p => (p.value, p.via) := by
  unfold powerLossCheck
  split
  · split
    · exact (enterDormant_within s).programming
    · rfl
  · rfl

/-- The local timebase leaves what is being programmed and who is answered (R196). -/
theorem advance_programming (n : Nat) (s : State) :
    (advance n s).factory.programming.map (fun p => (p.value, p.via)) =
      s.factory.programming.map fun p => (p.value, p.via) := by
  induction n generalizing s with
  | zero => rfl
  | succ n ih => exact (ih _).trans ((powerLossCheck_programming _).trans (halfTicked_within s).programming)

/-! ## The home delivery buffer and the response lists -/

/-- A frame enters the buffer where there is room for it (R129). -/
theorem putHome_ranges {s : State} (f : HomeFrame) (h : RangeLaw s) (room : bufferTakes s f.bytes.length = true) :
    RangeLaw (putHome f s) := by
  simp only [bufferTakes, Bool.and_eq_true, decide_eq_true_eq] at room
  have put : RangeLaw { s with data.buffer := s.data.buffer ++ [f] } :=
    { h with buffer := (bufferFill_append _ _).trans_le room.2 }
  exact put.within (kickHome_within _)

theorem deliverDown_ranges {s : State} (content : List Byte) (h : RangeLaw s) : RangeLaw (deliverDown content s) := by
  unfold deliverDown
  split
  · exact putHome_ranges _ h ‹_›
  · exact h.within (count_within _ _)

theorem placeHomeNotice_ranges {s : State} (h : RangeLaw s) : RangeLaw (placeHomeNotice s) := by
  unfold placeHomeNotice
  split
  · dsimp only
    split
    · exact putHome_ranges _ (h.within (.same rfl)) ‹_›
    · exact h
  · exact h

theorem placeHomeNotices_ranges {s : State} (n : Nat) (h : RangeLaw s) : RangeLaw (placeHomeNotices n s) := by
  induction n generalizing s with
  | zero => exact h
  | succ n ih => exact ih (placeHomeNotice_ranges h)

theorem offerHomeResponses_ranges {s : State} (n : Nat) (h : RangeLaw s) : RangeLaw (offerHomeResponses n s) := by
  induction n generalizing s with
  | zero => exact h
  | succ n ih =>
    unfold offerHomeResponses
    split
    · exact h
    · rename_i e rest hl
      have taken : RangeLaw { s with mgmt.home.responses := rest } :=
        h.within { RangesWithin.refl s with home := by rw [hl]; exact Nat.le_succ _ }
      dsimp only
      split
      · exact ih taken
      · split
        · exact ih (putHome_ranges _ taken ‹_›)
        · exact h

/-- An answer joins a response list that has room for it: 8 while a programming on the channel is still to be answered, 9
otherwise (R191, log entry 28). -/
theorem addResponse_ranges {s : State} (ch : Channel) (r : Response) (h : RangeLaw s)
    (hl : (s.chan ch).responses.length ≤ 8)
    (hp : ∀ p, s.factory.programming = some p → p.via.ch = ch → (s.chan ch).responses.length ≤ 7) :
    RangeLaw (addResponse ch r s) := by
  have joined : RangeLaw (onChan ch (fun c => { c with responses := c.responses ++ [⟨r, false⟩] }) s) := by
    cases ch
    · refine { h with homeList := ?_, carried := fun p hs => ?_ }
      · exact (List.length_append ..).trans_le (Nat.succ_le_succ hl)
      · have old := h.carried p hs
        cases hc : p.via.ch
        · exact (List.length_append ..).trans_le (Nat.succ_le_succ (hp p hs hc))
        · rw [hc] at old
          exact old
    · refine { h with operatorList := ?_, carried := fun p hs => ?_ }
      · exact (List.length_append ..).trans_le (Nat.succ_le_succ hl)
      · have old := h.carried p hs
        cases hc : p.via.ch
        · rw [hc] at old
          exact old
        · exact (List.length_append ..).trans_le (Nat.succ_le_succ (hp p hs hc))
  cases ch
  · exact offerHomeResponses_ranges 8 joined
  · exact joined.within (offerOverheadResponses_within 8 _)

/-! ## Ring units -/

/-- The grant at the start of on-phases stays within the allowance (R95). -/
theorem grantUnits_ranges {s : State} (start1 start2 : Bool) (h : RangeLaw s) : RangeLaw (grantUnits start1 start2 s) := by
  have le := granted_le (s.handset.allowance - unitsHeld s) start1 start2 s.handset.p1.skipped s.handset.p2.skipped
  have held := h.units
  unfold grantUnits
  unfold unitsHeld at le held ⊢
  generalize granted _ start1 start2 s.handset.p1.skipped s.handset.p2.skipped = g at le ⊢
  obtain ⟨g1, g2⟩ := g
  cases start1 <;> cases start2
  · exact h
  all_goals
    refine { h with units := ?_ }
    simp only [unitsHeld, onPort, State.setPort, State.port, PortRec.onPhase, if_true, Bool.false_eq_true, if_false] at le held ⊢
    omega

theorem PortRec.nextPhase_unit (r : PortRec) (h : r.nextPhase.unitHeld = true) : r.unitHeld = true := by
  unfold PortRec.nextPhase at h
  split at h
  · split at h
    · dsimp only at h
      split at h
      · cases h
      · exact h
    · exact h
  · exact h

theorem PortRec.firstPhase_unit (r : PortRec) (h : r.firstPhase.unitHeld = true) : r.unitHeld = true := by
  unfold PortRec.firstPhase at h
  split at h
  · split at h
    · exact h
    · exact h
  · exact h

theorem endPhases_ranges {s : State} (h : RangeLaw s) : RangeLaw (endPhases s) :=
  grantUnits_ranges _ _ (h.within (onPorts_within _ _ PortRec.nextPhase_unit))

theorem beginPhases_ranges {s : State} (h : RangeLaw s) : RangeLaw (beginPhases s) :=
  grantUnits_ranges _ _ (h.within (onPorts_within _ _ fun r hr => r.nextPhase_unit (PortRec.firstPhase_unit _ hr)))

end Sys2Proof.Machine
end

section
namespace Sys2Proof.Machine

/-! ## The loading pass (R28 to R31) -/

/-- Every b from `b` down with T[b] ≤ E and b ≤ cap is at most the one found (R28). -/
theorem le_largestBits (t : List Nat) (cap : Nat) (e : Int) {x : Nat} (b : Nat) (h2 : 2 ≤ x) (hx : x ≤ b) (hc : x ≤ cap)
    (ht : (threshold t x : Int) ≤ e) : x ≤ largestBits t cap e b := by
  induction b with
  | zero => omega
  | succ b ih =>
    unfold largestBits
    split
    · exact hx
    · rename_i hn
      by_cases hb : x = b + 1
      · subst hb
        exact absurd ⟨h2, hc, ht⟩ hn
      · exact ih (by omega)

/-- What is found is 0, or fits (R28). -/
theorem largestBits_cases (t : List Nat) (cap : Nat) (e : Int) (b : Nat) :
    largestBits t cap e b = 0 ∨ (2 ≤ largestBits t cap e b ∧ largestBits t cap e b ≤ b ∧
      largestBits t cap e b ≤ cap ∧ (threshold t (largestBits t cap e b) : Int) ≤ e) := by
  induction b with
  | zero => exact .inl rfl
  | succ b ih =>
    unfold largestBits
    split
    · rename_i h
      exact .inr ⟨h.1, le_rfl, h.2.1, h.2.2⟩
    · rcases ih with h | ⟨h2, hb, hc, ht⟩
      · exact .inl h
      · exact .inr ⟨h2, hb.trans (Nat.le_succ b), hc, ht⟩

/-- The record of a tone: 0 and 0, or bits that fit with the gain that trims the headroom (R28). -/
theorem loadTone_cases (p : Pass) (m tone : Nat) (s0 : Int) (c : ToneSetting) :
    loadTone p m tone s0 c = ⟨0, 0⟩ ∨
      (c.state = .active ∧ tone ≤ p.ceiling ∧ ∃ b, b = largestBits p.thresholds c.cap (s0 + p.credit - m) 12 ∧
        2 ≤ b ∧ b ≤ 12 ∧ b ≤ c.cap ∧ (threshold p.thresholds b : Int) ≤ s0 + p.credit - m ∧
        loadTone p m tone s0 c = ⟨b, -(min (s0 + p.credit - m - (threshold p.thresholds b : Int)) 10)⟩) := by
  unfold loadTone
  dsimp only
  by_cases ha : c.state = .active ∧ tone ≤ p.ceiling
  · rw [if_pos ha]
    rcases largestBits_cases p.thresholds c.cap (s0 + p.credit - m) 12 with h | ⟨h2, h12, hc, ht⟩
    · exact .inl (if_pos h)
    · exact .inr ⟨ha.1, ha.2, _, rfl, h2, h12, hc, ht, if_neg (by omega)⟩
  · exact .inl (by rw [if_neg ha, if_pos rfl])

theorem loadTone_gain (p : Pass) (m tone : Nat) (s0 : Int) (c : ToneSetting) :
    -10 ≤ (loadTone p m tone s0 c).gain ∧ (loadTone p m tone s0 c).gain ≤ 0 := by
  rcases loadTone_cases p m tone s0 c with h | ⟨-, -, b, -, -, -, -, ht, h⟩
  · rw [h]; decide
  · rw [h]
    dsimp only
    omega

theorem loadTone_legal (p : Pass) (m tone : Nat) (s0 : Int) (c : ToneSetting) :
    LegalTone (loadTone p m tone s0 c).bits (loadTone p m tone s0 c).gain := by
  obtain ⟨lo, hi⟩ := loadTone_gain p m tone s0 c
  refine ⟨?_, lo, hi.trans (by decide)⟩
  rcases loadTone_cases p m tone s0 c with h | ⟨-, -, b, -, h2, h12, -, -, h⟩ <;> rw [h]
  · exact .inl rfl
  · exact .inr ⟨h2, h12⟩

/-- A record of a pass is the record of one of its tones. -/
theorem loadBank_mem (p : Pass) (m tone : Nat) (s0s : List Int) (cs : List ToneSetting) {r : ToneRec}
    (h : r ∈ loadBank p m tone s0s cs) : ∃ i s0 c, r = loadTone p m i s0 c := by
  induction s0s generalizing tone cs with
  | nil => simp [loadBank] at h
  | cons s0 rest ih =>
    cases cs with
    | nil => simp [loadBank] at h
    | cons c cs =>
      rw [loadBank] at h
      rcases List.mem_cons.mp h with rfl | h
      · exact ⟨_, _, _, rfl⟩
      · exact ih _ _ h

theorem loadBank_legal (p : Pass) (m tone : Nat) (s0s : List Int) (cs : List ToneSetting) :
    LegalBank (loadBank p m tone s0s cs) := by
  intro r hr
  obtain ⟨i, s0, c, rfl⟩ := loadBank_mem p m tone s0s cs hr
  exact loadTone_legal p m i s0 c

/-- The bank of a request's passes is the full pass at the M_pass that stands (R30). -/
theorem lowerPasses_bank (p : Pass) (v fuel m : Nat) :
    (lowerPasses p v fuel m).2.1 = loadBank p (lowerPasses p v fuel m).2.2 33 p.s0 p.settings := by
  induction fuel generalizing m with
  | zero => rfl
  | succ fuel ih =>
    unfold lowerPasses
    dsimp only
    split
    · rfl
    · split
      · rfl
      · exact ih _

theorem passRounds_bank (p : Pass) (n v : Nat) (s : State) :
    ∃ m, (passRounds p n v s).2.bank = loadBank p m 33 p.s0 p.settings := by
  induction v generalizing n s with
  | zero => exact ⟨_, lowerPasses_bank p 0 20 p.m⟩
  | succ v ih =>
    unfold passRounds
    split
    · exact ⟨_, lowerPasses_bank p (v + 1) 20 p.m⟩
    · exact ih _ _

/-! ## The swap evaluation (R33 to R35) -/

/-- A tone as the evaluation sees it holds values a record and a setting may hold. -/
def LegalView (v : ToneView) : Prop := LegalTone v.bits v.gain ∧ (v.cap = 0 ∨ (2 ≤ v.cap ∧ v.cap ≤ 12))

theorem toneViews_legal (t : List Nat) (credit i : Nat) (ms : List Meas) (bank : List ToneRec) (cs : List ToneSetting)
    (hb : LegalBank bank) (hc : LegalCaps cs) : ∀ v ∈ toneViews t credit i ms bank cs, LegalView v := by
  induction ms generalizing i bank cs with
  | nil => simp [toneViews]
  | cons m ms ih =>
    cases bank with
    | nil => simp [toneViews]
    | cons r bank =>
      cases cs with
      | nil => simp [toneViews]
      | cons c cs =>
        obtain ⟨hr, hb⟩ := List.forall_mem_cons.mp hb
        obtain ⟨hd, hc⟩ := List.forall_mem_cons.mp hc
        exact List.forall_mem_cons.mpr ⟨⟨hr, hd⟩, ih _ _ _ hb hc⟩

/-- A search along a list that keeps its best entry or takes the next one that passes `P` ends at an entry of the list that
passes `P`. -/
theorem foldl_best {α : Type} (P : α → Prop) (f : Option α → α → Option α)
    (hf : ∀ b x, f b x = b ∨ (f b x = some x ∧ P x)) (l : List α) (b : Option α) {v : α} (h : l.foldl f b = some v) :
    b = some v ∨ (v ∈ l ∧ P v) := by
  induction l generalizing b with
  | nil => exact .inl h
  | cons x l ih =>
    rcases ih (f b x) h with h | ⟨hm, hp⟩
    · rcases hf b x with e | ⟨e, hp⟩
      · exact .inl (e.symm.trans h)
      · cases e.symm.trans h
        exact .inr ⟨List.mem_cons_self, hp⟩
    · exact .inr ⟨List.mem_cons_of_mem x hm, hp⟩

theorem weakest_mem (held : List (Nat × Nat)) (views : List ToneView) {v : ToneView} (h : weakest held views = some v) :
    v ∈ views := by
  refine ((foldl_best (fun _ => True) _ (fun b x => ?_) views none h).resolve_left nofun).1
  split
  · exact .inl rfl
  · split
    · exact .inr ⟨rfl, trivial⟩
    · split
      · exact .inr ⟨rfl, trivial⟩
      · exact .inl rfl

theorem bestCandidate_spec (t : List Nat) (credit m ceiling weak left : Nat) (views : List ToneView) {w : ToneView}
    (h : bestCandidate t credit m ceiling weak left views = some w) :
    w ∈ views ∧ candidate t credit m ceiling weak left w = true := by
  refine (foldl_best (fun x => candidate t credit m ceiling weak left x = true) _ (fun b x => ?_) views none h).resolve_left
    nofun
  split
  · split
    · exact .inr ⟨rfl, ‹_›⟩
    · split
      · exact .inr ⟨rfl, ‹_›⟩
      · exact .inl rfl
  · exact .inl rfl

/-- A candidate carries 2..12 bits after a placement (R35). -/
theorem candidate_after (t : List Nat) (credit m ceiling weak left : Nat) {w : ToneView} (hw : LegalView w)
    (h : candidate t credit m ceiling weak left w = true) : 2 ≤ w.after ∧ w.after ≤ 12 := by
  simp only [candidate, Bool.and_eq_true, decide_eq_true_eq] at h
  obtain ⟨⟨hb, -⟩, -⟩ := hw
  refine ⟨?_, by omega⟩
  unfold ToneView.after
  split
  · exact le_rfl
  · omega

theorem placeBits_legal (t : List Nat) (credit m ceiling weak fuel left : Nat) (views : List ToneView) {placed : List ToneView}
    (hv : ∀ v ∈ views, LegalView v) (h : placeBits t credit m ceiling weak fuel left views = some placed) :
    ∀ v ∈ placed, LegalView v := by
  induction fuel generalizing left views with
  | zero =>
    unfold placeBits at h
    split at h
    · cases h; exact hv
    · cases h
  | succ fuel ih =>
    unfold placeBits at h
    split at h
    · cases h; exact hv
    · split at h
      · cases h
      · rename_i w hw
        obtain ⟨hm, hc⟩ := bestCandidate_spec _ _ _ _ _ _ _ hw
        have after := candidate_after t credit m ceiling weak left (hv w hm) hc
        refine ih _ _ (fun v hv' => ?_) h
        obtain ⟨x, hx, rfl⟩ := List.mem_map.mp hv'
        split
        · exact ⟨⟨.inr after, (hv x hx).1.2⟩, (hv x hx).2⟩
        · exact hv x hx

theorem changedEntries_mem (old new : List ToneView) {e : SwapEntry} (h : e ∈ changedEntries old new) :
    ∃ v ∈ new, e = ⟨v.tone, v.bits, v.gain⟩ := by
  induction old generalizing new with
  | nil => simp [changedEntries] at h
  | cons a old ih =>
    cases new with
    | nil => simp [changedEntries] at h
    | cons b new =>
      have later (h : e ∈ changedEntries old new) : ∃ v ∈ b :: new, e = ⟨v.tone, v.bits, v.gain⟩ := by
        obtain ⟨v, hv, he⟩ := ih new h
        exact ⟨v, List.mem_cons_of_mem b hv, he⟩
      unfold changedEntries at h
      split at h
      · exact later h
      · rcases List.mem_cons.mp h with rfl | h
        · exact ⟨b, List.mem_cons_self, rfl⟩
        · exact later h

/-- The bits left to the weak tone are bits a record may hold (R35). -/
theorem givenUp_legal {v : ToneView} (h : LegalView v) : (givenUp v).2 = 0 ∨ (2 ≤ (givenUp v).2 ∧ (givenUp v).2 ≤ 12) := by
  obtain ⟨⟨hb, -⟩, hc⟩ := h
  unfold givenUp
  split
  · exact .inl rfl
  · split
    · exact hc
    · split
      · exact .inr ⟨by dsimp only; omega, by dsimp only; omega⟩
      · exact .inl rfl

theorem bitMove_legal (t : List Nat) (credit m ceiling : Nat) (views : List ToneView) {v : ToneView} {es : List SwapEntry}
    (hv : ∀ x ∈ views, LegalView x) (hm : v ∈ views) (h : bitMove t credit m ceiling views v = some es) :
    ∀ e ∈ es, LegalTone e.bits e.gain := by
  unfold bitMove at h
  dsimp only at h
  split at h
  · cases h
  · rename_i placed hp
    split at h
    · cases h
      have placed_legal := placeBits_legal _ _ _ _ _ _ _ _ hv hp
      intro e he
      rcases List.mem_cons.mp he with rfl | he
      · exact ⟨givenUp_legal (hv v hm), (hv v hm).1.2⟩
      · obtain ⟨x, hx, rfl⟩ := changedEntries_mem views placed he
        exact (placed_legal x hx).1
    · cases h

/-- The entries of the order that an evaluation gives are records a bank may hold (R34, R35). -/
theorem evaluateSwap_legal {s : State} (hb : LegalBank (s.tones.active .rx)) (hc : LegalCaps s.tones.rxSet) {weak : Nat}
    {es : List SwapEntry} (h : evaluateSwap s = some (weak, es)) : ∀ e ∈ es, LegalTone e.bits e.gain := by
  have views := toneViews_legal s.tones.thresholds s.tones.credit 33 s.tones.meas _ _ hb hc
  unfold evaluateSwap at h
  dsimp only at h
  split at h
  · cases h
  · rename_i v hw
    have hm := weakest_mem _ _ hw
    split at h
    · split at h
      · rename_i hl
        cases h
        simp only [Bool.and_eq_true, decide_eq_true_eq] at hl
        obtain ⟨hb, hlo, hhi⟩ := (views v hm).1
        have lift : liftOf s.tones.margins.m (gainSum (s.tones.active .rx)) v ≤ 10 - v.gain := by
          unfold liftOf
          omega
        exact List.forall_mem_singleton.mpr ⟨hb, by dsimp only; omega, by dsimp only; omega⟩
      · obtain ⟨es', he, hx⟩ := Option.map_eq_some_iff.mp h
        cases hx
        exact bitMove_legal _ _ _ _ _ views hm he
    · cases h

end Sys2Proof.Machine
end

section
namespace Sys2Proof.Machine

/-! ## The Tone Store -/

theorem RangeLaw.bank {s : State} (h : RangeLaw s) (d : Dir) (k : BankId) : LegalBank (s.tones.bank d k) := by
  cases d <;> cases k
  · exact h.rxA
  · exact h.rxB
  · exact h.txA
  · exact h.txB

theorem RangeLaw.active {s : State} (h : RangeLaw s) (d : Dir) : LegalBank (s.tones.active d) := h.bank _ _

theorem setBank_ranges {s : State} (h : RangeLaw s) (d : Dir) (k : BankId) {l : List ToneRec} (hl : LegalBank l) :
    RangeLaw { s with tones := s.tones.setBank d k l } := by
  cases d <;> cases k
  · exact { h with rxA := hl }
  · exact { h with rxB := hl }
  · exact { h with txA := hl }
  · exact { h with txB := hl }

theorem settings_legal {s : State} (h : RangeLaw s) (d : Dir) : LegalCaps (s.tones.settings d) := by
  cases d
  · exact h.rxCaps
  · exact h.txCaps

theorem setSettings_ranges {s : State} (h : RangeLaw s) (d : Dir) {l : List ToneSetting} (hl : LegalCaps l) :
    RangeLaw { s with tones := s.tones.setSettings d l } := by
  cases d
  · exact { h with rxCaps := hl }
  · exact { h with txCaps := hl }

theorem measured_ranges {s : State} (h : RangeLaw s) (ms : List Meas) : RangeLaw { s with tones.meas := ms } := { h with }

theorem writeEntries_legal (d : Dir) {bank : List ToneRec} {es : List SwapEntry} (hb : LegalBank bank)
    (he : ∀ e ∈ es, LegalTone e.bits e.gain) : LegalBank (writeEntries d bank es) := by
  intro r hr
  rcases writeEntries_mem d bank es r hr with hr | ⟨e, hm, rfl⟩
  · exact hb r hr
  · exact he e hm

theorem legalTone_of_checks {b : Nat} {g : Int} (hb : legalBits b = true) (hg : legalGain g = true) : LegalTone b g := by
  simp only [legalBits, legalGain, Bool.or_eq_true, Bool.and_eq_true, beq_iff_eq, decide_eq_true_eq] at hb hg
  exact ⟨hb, hg⟩

theorem toBank_legal {tones : List (Nat × Int)} (h : ∀ t ∈ tones, legalBits t.1 = true ∧ legalGain t.2 = true) :
    LegalBank (toBank tones) := by
  intro r hr
  obtain ⟨t, ht, rfl⟩ := List.mem_map.mp hr
  exact legalTone_of_checks (h t ht).1 (h t ht).2

/-! ## The cycle boundary -/

theorem sampleCycle_ranges {s : State} (samples : List Int) (h : RangeLaw s) : RangeLaw (sampleCycle samples s) := by
  unfold sampleCycle
  split
  · exact (measured_ranges h _).within (.same rfl)
  · exact h

theorem judgeCycle_within (energy nominal : Nat) (s : State) : RangesWithin s (judgeCycle energy nominal s) := by
  unfold judgeCycle
  split
  · exact .same rfl
  · exact .refl s

theorem tickCycle_within (s : State) : RangesWithin s (tickCycle s) := by
  refine { RangesWithin.refl s with rxSwap := fun w hw => ?_ }
  obtain ⟨v, hv, rfl⟩ := Option.map_eq_some_iff.mp hw
  exact ⟨v, hv, rfl⟩

theorem orderSwap_ranges {s : State} (h : RangeLaw s) : RangeLaw (orderSwap s) := by
  unfold orderSwap
  split
  · split
    · exact h
    · rename_i he
      refine RangeLaw.within ?_ (offer_within _ _)
      exact { h with rxSwap := fun w hw => by cases hw; exact evaluateSwap_legal (h.active .rx) h.rxCaps he }
  · exact h

theorem startRings_ranges {s : State} (h : RangeLaw s) : RangeLaw (startRings s) := by
  unfold startRings
  split
  · exact beginPhases_ranges h
  · exact h

theorem offLineVoice_within (s : State) : RangesWithin s (offLineVoice s) := by
  unfold offLineVoice
  split
  any_goals exact restOfVoice_within s
  all_goals exact .refl s

theorem slotsAtBoundary_ranges {s : State} (h : RangeLaw s) : RangeLaw (slotsAtBoundary s) := by
  have laid : RangeLaw (if (freeReleased s).line.state = .service then recompute (freeReleased s) else freeReleased s) := by
    split
    · exact h.within (.same rfl)
    · exact h.within (.same rfl)
  unfold slotsAtBoundary
  dsimp only
  split
  · exact dormancyCheck_ranges laid
  · exact laid

theorem cycleEnds_ranges {s : State} (samples : List Int) (energy nominal : Nat) (h : RangeLaw s) :
    RangeLaw (cycleEnds samples energy nominal s) := by
  have judged := (sampleCycle_ranges samples (h.within (offLineVoice_within s))).within (judgeCycle_within energy nominal _)
  exact slotsAtBoundary_ranges (startRings_ranges (orderSwap_ranges (judged.within ((tickCycle_within _).after rfl))))

/-! ## The second boundary -/

theorem retireTones_caps (i : Nat) (ms : List Meas) (cs : List ToneSetting) (h : LegalCaps cs) :
    LegalCaps (retireTones i ms cs).1 := by
  induction ms generalizing i cs with
  | nil => simpa [retireTones] using h
  | cons m ms ih =>
    cases cs with
    | nil => simp [retireTones, LegalCaps]
    | cons c cs =>
      obtain ⟨hc, h⟩ := List.forall_mem_cons.mp h
      unfold retireTones
      dsimp only
      split
      · exact List.forall_mem_cons.mpr ⟨hc, ih _ _ h⟩
      · exact List.forall_mem_cons.mpr ⟨hc, ih _ _ h⟩

theorem raiseRetired_within (l : List Nat) (s : State) : RangesWithin s (raiseRetired l s) := by
  induction l generalizing s with
  | nil => exact .refl s
  | cons i rest ih => exact (raise_within _ _ _ _ s).trans (ih _)

theorem floorSeconds_ranges {s : State} (h : RangeLaw s) : RangeLaw (floorSeconds s) := by
  have retired : RangeLaw { s with
      tones.meas := s.tones.meas.map Meas.floorSecond
      tones.rxSet := (retireTones 33 (s.tones.meas.map Meas.floorSecond) s.tones.rxSet).1 } :=
    { h with rxCaps := retireTones_caps _ _ _ h.rxCaps }
  exact retired.within (raiseRetired_within _ _)

theorem serviceSecond_ranges {s : State} (h : RangeLaw s) : RangeLaw (serviceSecond s) :=
  floorSeconds_ranges ((h.within (classifySecond_within s)).within (.same rfl))

theorem secondEnds_ranges {s : State} (h : RangeLaw s) : RangeLaw (secondEnds s) := by
  unfold secondEnds
  dsimp only
  split
  · exact serviceSecond_ranges (h.within (.same rfl))
  · exact h.within (.same rfl)

/-! ## Training -/

theorem sendTraining_within (m : TrainMsg) (s : State) : RangesWithin s (sendTraining m s) := by
  cases m
  all_goals exact .same rfl

theorem takeReply_within (credit count probeStart : Nat) (s : State) : RangesWithin s (takeReply credit count probeStart s) := by
  unfold takeReply
  dsimp only
  split
  · exact .same rfl
  · exact .same rfl

theorem leaveProbe_within (s : State) : RangesWithin s (leaveProbe s) := by
  unfold leaveProbe
  split
  · exact (requestPass_within _ _).after rfl
  · exact failAttempt_within _ s

theorem readyWhenBoth_within (before : List Byte) (s : State) : RangesWithin s (readyWhenBoth before s) := by
  unfold readyWhenBoth
  split
  · exact .same rfl
  · exact .refl s

theorem takeTxTable_ranges {s : State} (first : Nat) (tones : List (Nat × Int)) (h : RangeLaw s) :
    RangeLaw (takeTxTable first tones s) := by
  unfold takeTxTable
  split
  · rename_i hv
    simp only [txTableValid, Bool.and_eq_true, List.all_eq_true] at hv
    obtain ⟨⟨⟨⟨⟨-, hb⟩, -⟩, hg⟩, -⟩, -⟩ := hv
    have own : LegalBank (toBank (ownEntries first tones)) := toBank_legal fun t ht => by
      have hm := List.mem_of_mem_drop (List.mem_of_mem_take ht)
      exact ⟨hb t hm, hg t hm⟩
    have taken : RangeLaw { s with tones.txA := toBank (ownEntries first tones), line.txTableTaken := true } :=
      { h with txA := own }
    exact taken.within (readyWhenBoth_within _ _)
  · exact h.within (failAttempt_within _ s)

theorem seizeMarked_within (p : Port) (s : State) : RangesWithin s (seizeMarked p s) := by
  unfold seizeMarked
  dsimp only
  split
  · exact (onPort_within _ _ _ (by nofun)).trans (requestCall_within p _)
  · exact .refl s

/-- The automatic seizures of an entry to SERVICE, in either order (R89). -/
theorem seizures_within (port2First : Bool) (s : State) : RangesWithin s
    (if port2First then seizeMarked .p1 (seizeMarked .p2 s) else seizeMarked .p2 (seizeMarked .p1 s)) := by
  split
  · exact (seizeMarked_within _ s).trans (seizeMarked_within _ _)
  · exact (seizeMarked_within _ s).trans (seizeMarked_within _ _)

theorem enterService_ranges {s : State} (port2First : Bool) (h : RangeLaw s) : RangeLaw (enterService port2First s) := by
  refine RangeLaw.within ?_ ((raise_within _ _ _ _ _).trans ((seizures_within port2First _).trans
    ((onPorts_within clearMark _ fun r => id).trans (fillRooms_within 16 _))))
  exact { h with }

end Sys2Proof.Machine
end

section
namespace Sys2Proof.Machine

/-! ## Rate shifts and tone swaps -/

theorem startShift_within (k : ShiftKind) (s : State) : RangesWithin s (startShift k s) :=
  (requestPass_within false _).after rfl

theorem trainingPassEnds_within (p : Pass) (r : PassResult) (s : State) : RangesWithin s (trainingPassEnds p r s) := by
  unfold trainingPassEnds
  split
  · exact ((sendTraining_within .rxTable _).trans (readyWhenBoth_within _ _)).after rfl
  · exact failAttempt_within _ s

theorem judgeBothHeld_within (port2First : Bool) (s : State) : RangesWithin s
    (if port2First then judgeHeld .p1 (judgeHeld .p2 s) else judgeHeld .p2 (judgeHeld .p1 s)) := by
  split
  · exact (judgeHeld_within _ s).trans (judgeHeld_within _ _)
  · exact (judgeHeld_within _ s).trans (judgeHeld_within _ _)

theorem shiftPassEnds_ranges {s : State} (port2First : Bool) (p : Pass) (r : PassResult) (h : RangeLaw s) :
    RangeLaw (shiftPassEnds port2First p r s) := by
  unfold shiftPassEnds
  split
  · refine RangeLaw.within ?_ (judgeBothHeld_within port2First _)
    split
    · exact h.within (.same rfl)
    · exact h.within ((offer_within _ _).after rfl)
  · exact leaveService_ranges h _ _

theorem startWaiting_within (s : State) : RangesWithin s (startWaiting s) := by
  unfold startWaiting
  split
  · exact .same rfl
  · exact .refl s

theorem passEnds_ranges {s : State} (port2First : Bool) (p : Pass) (h : RangeLaw s) : RangeLaw (passEnds port2First p s) := by
  unfold passEnds
  refine RangeLaw.within ?_ (startWaiting_within _)
  obtain ⟨m, hm⟩ := passRounds_bank p 0 p.vFloor { s with loader.running := none }
  have rounds := h.within ((passRounds_within p 0 p.vFloor { s with loader.running := none }).after rfl)
  have written := setBank_ranges rounds .rx p.bank (hm ▸ loadBank_legal p m 33 p.s0 p.settings)
  have lowered (c : Prop) [Decidable c] (ps : List Int) (t : State) (ht : RangeLaw t) :
      RangeLaw (if c then raise .line .minor .marginLowered ps t else t) := by
    split
    · exact ht.within (raise_within _ _ _ _ t)
    · exact ht
  dsimp only
  split
  · exact lowered _ _ _ written
  · split
    · exact (lowered _ _ _ written).within (trainingPassEnds_within _ _ _)
    · exact shiftPassEnds_ranges _ _ _ (lowered _ _ _ written)

theorem failShift_ranges {s : State} (h : RangeLaw s) : RangeLaw (failShift s) := by
  unfold failShift
  dsimp only
  split
  · refine leaveService_ranges ?_ _ _
    exact h.within (.same rfl)
  · exact h.within (.same rfl)

theorem offerTimesOut_ranges {s : State} (h : RangeLaw s) : RangeLaw (offerTimesOut s) := by
  refine failShift_ranges ?_
  split
  · exact h.within (withdraw_within _ s)
  · exact h.within (offer_within _ s)

theorem takeAccept_ranges {s : State} (count : Nat) (h : RangeLaw s) : RangeLaw (takeAccept count s) := by
  unfold takeAccept
  split
  · split
    · exact h.within (.same rfl)
    · exact failShift_ranges (h.within (offer_within _ s))
  · exact h.within (offer_within _ s)
  · exact h.within (offer_within _ s)
  · exact h

theorem takeDecline_ranges {s : State} (reason : Nat) (h : RangeLaw s) : RangeLaw (takeDecline reason s) := by
  unfold takeDecline
  split
  · exact failShift_ranges h
  · exact h

theorem reportShift_within (d : Dir) (oldB newB : Nat) (s : State) : RangesWithin s (reportShift d oldB newB s) := by
  refine RangesWithin.trans ?_ (raise_within _ _ _ _ _)
  split
  · exact count_within _ s
  · split
    · exact count_within _ s
    · exact .refl s

theorem applyRxShift_ranges {s : State} (h : RangeLaw s) : RangeLaw (applyRxShift s) := by
  refine RangeLaw.within ?_ (reportShift_within _ _ _ _)
  exact { h with }

theorem applyTxShift_ranges {s : State} (x : TxShift) (h : RangeLaw s) : RangeLaw (applyTxShift x s) := by
  refine RangeLaw.within ?_ (reportShift_within _ _ _ _)
  exact { h with }

theorem rejectOrder_within (d : Dir) (kind reason : Nat) (s : State) : RangesWithin s (rejectOrder d kind reason s) :=
  raise_within _ _ _ _ s

/-- An offer that passes the checks of R61 gives a legal bank. -/
theorem offerFault_legal {dir : Dir} {count first : Nat} {tones : List (Nat × Int)} {s : State}
    (h : offerFault dir count first tones s = 0) : LegalBank (toBank tones) := by
  unfold offerFault at h
  repeat' split at h
  all_goals try cases h
  rename_i hb hg _ _ _
  simp only [Bool.not_eq_true', Bool.not_eq_false, bankBitsAllowed, List.all_eq_true, List.mem_range] at hb hg
  refine toBank_legal fun t ht => ⟨?_, hg t ht⟩
  obtain ⟨i, hi, rfl⟩ := List.getElem_of_mem ht
  have allowed := hb i hi
  simp only [bitsAllowed, Bool.and_eq_true, List.getD_eq_getElem?_getD, List.getElem?_eq_getElem hi, Option.getD_some] at allowed
  exact allowed.1.1

theorem takeOffer_ranges {s : State} (dir : Dir) (count : Nat) (hold : Bool) (first : Nat) (tones : List (Nat × Int))
    (h : RangeLaw s) : RangeLaw (takeOffer dir count hold first tones s) := by
  unfold takeOffer
  dsimp only
  split
  · rename_i he
    refine RangeLaw.within ?_ (offer_within _ _)
    exact (setBank_ranges h .tx (otherBank s.tones.txActive) (offerFault_legal he)).within (.same rfl)
  · exact h.within ((offer_within _ s).trans (rejectOrder_within _ _ _ _))

/-- The entries of an order that passes the checks of R37 are legal. -/
theorem swapFault_legal {dir : Dir} {count : Nat} {es : List SwapEntry} {s : State} (h : swapFault dir count es s = 0) :
    ∀ e ∈ es, LegalTone e.bits e.gain := by
  unfold swapFault at h
  dsimp only at h
  repeat' split at h
  all_goals try cases h
  rename_i hb hg _ _ _
  simp only [Bool.not_eq_true', Bool.not_eq_false, List.all_eq_true] at hb hg
  intro e he
  have allowed := hb e he
  simp only [bitsAllowed, Bool.and_eq_true] at allowed
  exact legalTone_of_checks allowed.1.1 (hg e he)

theorem takeSwapOrder_ranges {s : State} (dir : Dir) (count : Nat) (es : List SwapEntry) (h : RangeLaw s) :
    RangeLaw (takeSwapOrder dir count es s) := by
  unfold takeSwapOrder
  dsimp only
  split
  · rename_i he
    refine RangeLaw.within ?_ (offer_within _ _)
    exact { h with txSwap := fun w hw => by cases hw; exact swapFault_legal he }
  · exact h.within ((offer_within _ s).trans (rejectOrder_within _ _ _ _))

theorem takeSwapAck_within (s : State) : RangesWithin s (takeSwapAck s) := by
  unfold takeSwapAck
  split
  · rename_i w hw
    split
    · exact .refl s
    · exact { RangesWithin.refl s with rxSwap := fun x hx => by cases hx; exact ⟨w, hw, rfl⟩ }
  · exact .refl s

theorem takeSwapReject_within (reason : Nat) (s : State) : RangesWithin s (takeSwapReject reason s) := by
  unfold takeSwapReject
  split
  · split
    · exact .refl s
    · have abandoned : RangesWithin s { s with shifts.rxSwap := none } := { RangesWithin.refl s with rxSwap := nofun }
      dsimp only
      split
      · exact abandoned.trans (.same rfl)
      · exact abandoned
  · exact .refl s

theorem swapWaitEnds_within (s : State) : RangesWithin s (swapWaitEnds s) := by
  unfold swapWaitEnds
  split
  · rename_i w hw
    split
    · exact { RangesWithin.refl s with rxSwap := fun x hx => by cases hx; exact ⟨w, hw, rfl⟩ }
    · exact .refl s
  · exact .refl s

theorem holdEnds_within (tone : Nat) (s : State) : RangesWithin s (holdEnds tone s) :=
  { RangesWithin.refl s with rxSwap := fun w hw => ⟨w, (Option.filter_eq_some_iff.mp hw).1, rfl⟩ }

theorem writeSwap_ranges {s : State} (d : Dir) {es : List SwapEntry} (h : RangeLaw s)
    (he : ∀ e ∈ es, LegalTone e.bits e.gain) : RangeLaw (writeSwap d es s) := by
  have written := setBank_ranges h d (s.tones.activeId d) (writeEntries_legal d (h.active d) he)
  refine RangeLaw.within ?_ (count_within _ _)
  cases d
  · exact { written with }
  · exact { written with }

/-! ## The Impulse Tracker -/

theorem takeEvent_within (pos : Nat) (inside : Bool) (s : State) : RangesWithin s (takeEvent pos inside s) := by
  unfold takeEvent
  dsimp only
  split
  · exact ((count_within _ _).trans (raise_within _ _ _ _ _)).after rfl
  · exact (count_within _ _).after rfl

theorem takeImpulse_within (pos : Nat) (inside : Bool) (s : State) : RangesWithin s (takeImpulse pos inside s) := by
  have outside : RangesWithin s (if inside then s else { s with perf.outside := satInc 4000 s.perf.outside }) := by
    split
    · exact .refl s
    · exact .same rfl
  unfold takeImpulse
  dsimp only
  split
  · exact (outside.trans (takeEvent_within _ _ _)).trans (.same rfl)
  · exact outside.trans (.same rfl)

theorem withdrawSchedule_within (inForce : Bool) (s : State) : RangesWithin s (withdrawSchedule inForce s) := by
  unfold withdrawSchedule
  dsimp only
  split <;> split
  · exact ((withdraw_within _ _).trans (offer_within _ _)).after rfl
  · exact (withdraw_within _ _).after rfl
  · exact (offer_within _ _).after rfl
  · exact .same rfl

theorem windowCloses_within (s : State) : RangesWithin s (windowCloses s) := by
  unfold windowCloses
  dsimp only
  split
  · exact .same rfl
  · exact ((raise_within _ _ _ _ _).trans (withdrawSchedule_within _ _)).after rfl

theorem offerSchedule_within (s : State) : RangesWithin s (offerSchedule s) := by
  unfold offerSchedule
  split
  · exact .refl s
  · dsimp only
    split
    · exact (offer_within _ _).after rfl
    · exact .refl s

theorem scheduleSent_within (c : Nat) (s : State) : RangesWithin s (scheduleSent c s) := by
  unfold scheduleSent
  split
  · exact .refl s
  · dsimp only
    split
    · exact .same rfl
    · exact .same rfl

theorem takeSchedule_within (dir : Dir) (period cycle symbol width : Nat) (s : State) :
    RangesWithin s (takeSchedule dir period cycle symbol width s) := by
  unfold takeSchedule
  dsimp only
  split
  · exact .same rfl
  · exact rejectOrder_within _ _ _ s

theorem endDownWindows_within (s : State) : RangesWithin s (endDownWindows s) := .same rfl

theorem takeCancel_within (dir : Dir) (s : State) : RangesWithin s (takeCancel dir s) := by
  unfold takeCancel
  split
  · exact ((withdrawSchedule_within _ _).trans (endDownWindows_within _)).after rfl
  · split
    · exact .refl s
    · exact .same rfl

/-! ## The handset ports -/

theorem handOffHook_within (p : Port) (s : State) : RangesWithin s (handOffHook p s) := by
  unfold handOffHook
  split
  · exact offHookInIdle_within p s
  · exact ringTrip_within p s
  · exact .refl s

theorem completeIfAny_within (p : Port) (s : State) : RangesWithin s (completeIfAny p s) := by
  unfold completeIfAny
  split
  · exact completeDigit_within p s
  · exact .refl s

theorem goOnHook_within (p : Port) (s : State) : RangesWithin s (goOnHook p s) :=
  (completeIfAny_within p s).trans ((onPort_within _ _ _ id).trans (portOnHook_within p _))

theorem PortRec.pulse_unit (r : PortRec) (h : r.pulse.unitHeld = true) : r.unitHeld = true := by
  unfold PortRec.pulse at h
  split at h
  · exact h
  · exact h

theorem breakEnds_within (p : Port) (s : State) : RangesWithin s (breakEnds p s) := by
  unfold breakEnds
  dsimp only
  split
  · exact (onPort_within _ _ _ id).trans (onPort_within _ _ _ (PortRec.pulse_unit _))
  · split
    · exact (onPort_within _ _ _ id).trans ((completeIfAny_within p _).trans (handItem_within _ _ _))
    · exact (goOnHook_within p s).trans ((onPort_within _ _ _ id).trans (handOffHook_within p _))

theorem confirmLoop_within (p : Port) (s : State) : RangesWithin s (confirmLoop p s) := by
  unfold confirmLoop
  split
  · exact (onPort_within _ _ _ id).trans (handOffHook_within p _)
  · exact onPort_within _ _ _ id
  · exact breakEnds_within p s

/-! ## The voice slots -/

theorem refuseParty_within (k : Slot) (why : Refused) (s : State) : RangesWithin s (refuseParty k why s) := by
  unfold refuseParty
  split
  · exact onPort_within _ _ _ (by nofun)
  · exact .refl s

theorem seizureTimesOut_within (k : Slot) (s : State) : RangesWithin s (seizureTimesOut k s) :=
  (releaseWith_within k .timeout s).trans (refuseParty_within _ _ _)

theorem connectPort_within (p : Port) (s : State) : RangesWithin s (connectPort p s) :=
  (onPort_within _ _ _ id).trans (sendDigits_within p _ _)

theorem takeSeizeAck_within (k : Slot) (s : State) : RangesWithin s (takeSeizeAck k s) := by
  unfold takeSeizeAck
  dsimp only
  split
  · exact onSlot_within _ _ s
  · split
    · split
      · exact (onSlot_within _ _ s).trans (connectPort_within _ _)
      · exact .refl s
    · exact .refl s

theorem takeSeizeNak_within (k : Slot) (s : State) : RangesWithin s (takeSeizeNak k s) := by
  unfold takeSeizeNak
  dsimp only
  split
  · exact onSlot_within _ _ s
  · split
    · exact (markReleased_within k s).trans (refuseParty_within _ _ _)
    · exact .refl s

theorem takeRelease_within (k : Slot) (reason : Nat) (s : State) : RangesWithin s (takeRelease k reason s) := by
  unfold takeRelease
  dsimp only
  split
  · exact .refl s
  · split
    · exact endOrder_within k s
    · exact (markReleased_within k s).trans (refuseParty_within _ _ _)

theorem abortNamedTest_within (ps : PortSet) (s : State) : RangesWithin s (abortNamedTest ps s) := by
  unfold abortNamedTest
  split
  · split
    · split
      · exact abortClaim_within _ s
      · exact .refl s
    · exact .refl s
  · exact .refl s

theorem ringPorts_within (k : Slot) (order limit : Nat) (pairs : List (Nat × Nat)) (l : List Port) (s : State) :
    RangesWithin s (ringPorts k order limit pairs l s) := by
  induction l generalizing s with
  | nil => exact .refl s
  | cons p rest ih => exact (onPort_within p (startRinging k order limit pairs) s (by nofun)).trans (ih _)

theorem acceptRing_within (ps : PortSet) (cadence order : Nat) (s : State) : RangesWithin s (acceptRing ps cadence order s) :=
  (abortNamedTest_within ps s).trans ((grant_within _ _ _ _).trans (ringPorts_within _ _ _ _ _ _))

theorem takeRing_within (ps : PortSet) (cadence order : Nat) (s : State) : RangesWithin s (takeRing ps cadence order s) := by
  unfold takeRing
  split
  · exact .refl s
  · split
    · exact offer_within _ s
    · split
      · exact acceptRing_within ps cadence order s
      · exact (count_within _ s).trans (offer_within _ _)

theorem takeRingStop_within (order : Nat) (s : State) : RangesWithin s (takeRingStop order s) := by
  unfold takeRingStop
  split
  · split
    · exact endOrder_within _ s
    · exact .refl s
  · exact .refl s

theorem endUnanswered_within (order : Nat) (k : Slot) (s : State) : RangesWithin s (endUnanswered order k s) :=
  (offer_within _ s).trans (endOrder_within k _)

end Sys2Proof.Machine
end

section
namespace Sys2Proof.Machine

/-! ## Requests arriving and the home link -/

theorem queueRequest_ranges {s : State} (ch : Channel) (bytes addr : List Byte) (h : RangeLaw s) :
    RangeLaw (queueRequest ch bytes addr s) := by
  unfold queueRequest
  dsimp only
  split
  · exact h
  · split
    · refine h.within ?_
      cases ch <;> exact .same rfl
    · split
      · exact addResponse_ranges ch _ h (by omega) fun _ _ _ => by omega
      · exact h

theorem takeManagement_ranges {s : State} (frame : List Byte) (h : RangeLaw s) : RangeLaw (takeManagement frame s) := by
  unfold takeManagement
  dsimp only
  split
  · exact h
  · exact queueRequest_ranges _ _ _ h

theorem enqueueFrame_within (priority : Bool) (frame : List Byte) (s : State) :
    RangesWithin s (enqueueFrame priority frame s) := by
  unfold enqueueFrame
  split
  · split
    · exact .same rfl
    · exact count_within _ s
  · split
    · exact (judgeFlow_within _).after rfl
    · exact count_within _ s

theorem judgeFrame_ranges {s : State} (frame : List Byte) (checkAgrees : Bool) (h : RangeLaw s) :
    RangeLaw (judgeFrame frame checkAgrees s) := by
  have dropped : RangeLaw (count .framesDropped s) := h.within (count_within _ s)
  unfold judgeFrame
  split
  · exact dropped
  · split
    · exact dropped
    · split
      · exact h
      · split
        · exact takeManagement_ranges frame h
        · split
          · exact dropped
          · split
            · exact h.within (enqueueFrame_within true frame s)
            · exact h.within (enqueueFrame_within false frame s)
            · exact h

theorem linkComesUp_ranges {s : State} (h : RangeLaw s) : RangeLaw (linkComesUp s) := by
  unfold linkComesUp
  dsimp only
  refine placeHomeNotices_ranges 24 (h.within ?_)
  split
  · exact (duePause_within _ _).after rfl
  · exact (kickHome_within _).after rfl

theorem bufferFill_le_cons (f : HomeFrame) (b : List HomeFrame) : bufferFill b ≤ bufferFill (f :: b) := by
  have start : ∀ (l : List HomeFrame) (m n : Nat), m ≤ n →
      l.foldl (fun n f => n + f.bytes.length) m ≤ l.foldl (fun n f => n + f.bytes.length) n := by
    intro l
    induction l with
    | nil => exact fun _ _ h => h
    | cons x rest ih => exact fun m n h => ih _ _ (Nat.add_le_add_right h _)
  exact start b _ _ (Nat.zero_le _)

theorem returnFrames_within (l : List HomeFrame) (s : State) (hl : bufferFill l ≤ bufferFill s.data.buffer) :
    RangesWithin s (returnFrames l s) := by
  induction l generalizing s with
  | nil => exact { RangesWithin.refl s with buffer := Nat.zero_le _ }
  | cons f rest ih =>
    unfold returnFrames
    have left : RangesWithin s { s with data.buffer := rest } :=
      { RangesWithin.refl s with buffer := (bufferFill_le_cons f rest).trans hl }
    refine left.trans ?_
    dsimp only
    split
    · exact (count_within .framesDropped { s with data.buffer := rest }).trans
        (ih _ (by obtain ⟨p, a, n, e⟩ := count_frame .framesDropped { s with data.buffer := rest }; rw [e]))
    · exact ih _ le_rfl
    · rename_i n _
      exact (returnNotice_within .home n { s with data.buffer := rest }).trans
        (ih _ (by obtain ⟨n, e⟩ := returnNotice_frame .home n { s with data.buffer := rest }; rw [e]))

theorem linkGoesDown_ranges {s : State} (h : RangeLaw s) : RangeLaw (linkGoesDown s) :=
  offerHomeResponses_ranges 8 (h.within ((returnFrames_within s.data.buffer
    { s with data := { s.data with linkUp := false, tx := .idle, pauseDue := none } } le_rfl).after rfl))

theorem repeatPause_within (s : State) : RangesWithin s (repeatPause s) := by
  unfold repeatPause
  split
  · exact (duePause_within _ _).after rfl
  · exact .same rfl

theorem headSent_within (s : State) : RangesWithin s (headSent s) := by
  unfold headSent
  split
  · exact .refl s
  · rename_i f rest hb
    have left : RangesWithin s { s with data.buffer := rest } :=
      { RangesWithin.refl s with buffer := by rw [hb]; exact bufferFill_le_cons f rest }
    refine left.trans ?_
    dsimp only
    split
    · exact restartDoneSent_within _ _
    · exact .refl _

theorem frameGap_within (s : State) : RangesWithin s (frameGap s) := by
  unfold frameGap
  split
  · exact .refl s
  · exact (kickHome_within _).after rfl
  · exact ((headSent_within _).trans (kickHome_within _)).after rfl

theorem fillHome_ranges {s : State} (noticeFirst : Bool) (h : RangeLaw s) : RangeLaw (fillHome noticeFirst s) := by
  unfold fillHome
  split
  · exact offerHomeResponses_ranges 8 (placeHomeNotice_ranges h)
  · exact placeHomeNotice_ranges (offerHomeResponses_ranges 8 h)

/-! ## The archive -/

theorem fullIfLast_within (p : Program) (s : State) : RangesWithin s (fullIfLast p s) := by
  unfold fullIfLast
  dsimp only
  split
  · exact (rotate_within _).after rfl
  · exact .refl s

theorem eraseGoesOn_within (s : State) :
    RangesWithin s { s with archive := Archive.serve { s.archive with state := .erasing } } := .same rfl

theorem programCompletes_within (p : Program) (s : State) : RangesWithin s (programCompletes p s) := by
  unfold programCompletes
  dsimp only
  split
  · exact ((fullIfLast_within p _).trans (eraseGoesOn_within _)).after rfl
  · exact ((fullIfLast_within p _).trans (archiveReady_within _)).after rfl

theorem programFails_within (p : Program) (s : State) : RangesWithin s (programFails p s) :=
  ((raise_within _ _ _ _ _).trans (fullIfLast_within p _)).after rfl

theorem programEnds_ranges {s : State} (agrees : Bool) (p : Program) (h : RangeLaw s) :
    RangeLaw (programEnds agrees p s) := by
  unfold programEnds
  dsimp only
  split
  · exact (advance_ranges p.left h).within (programCompletes_within p _)
  · exact (advance_ranges p.left h).within (programFails_within p _)

theorem eraseCompletes_within (e : Erase) (s : State) : RangesWithin s (eraseCompletes e s) := by
  unfold eraseCompletes
  dsimp only
  split
  · exact (archiveReady_within _).after rfl
  · exact ((raise_within _ _ _ _ _).trans (archiveReady_within _)).after rfl

theorem eraseFails_within (e : Erase) (s : State) : RangesWithin s (eraseFails e s) := (raise_within _ _ _ _ _).after rfl

theorem eraseEnds_ranges {s : State} (allBlank : Bool) (e : Erase) (h : RangeLaw s) :
    RangeLaw (eraseEnds allBlank e s) := by
  have ended := advance_ranges e.left h
  unfold eraseEnds
  dsimp only
  split
  · split
    · exact ended.within (eraseCompletes_within _ _)
    · exact ended.within (eraseFails_within _ _)
  · exact ended

/-! ## Tests -/

theorem takeLine_ranges {s : State} (h : RangeLaw s) : RangeLaw (takeLine s) := by
  unfold takeLine
  split
  · exact leaveService_ranges h _ _
  · exact h.within ((endAttempt_within s).trans (.same rfl))
  · exact h.within (.same rfl)

theorem startTest_ranges {s : State} (t : TestType) (port : Option Port) (origin : Origin) (force automatic : Bool)
    (h : RangeLaw s) : RangeLaw (startTest t port origin force automatic s) := by
  unfold startTest
  dsimp only
  split
  · exact h.within ((onPort_within _ _ _ (by nofun)).after rfl)
  · refine takeLine_ranges ?_
    exact h.within (.same rfl)

theorem completeTest_within (m : Measurement) (c : Claim) (s : State) : RangesWithin s (completeTest m c s) := by
  have told (v : Verdict) (value : Int) : RangesWithin s (reportResult c v value (writeResult c v value s)) :=
    (raise_within _ _ _ _ _).after rfl
  unfold completeTest
  dsimp only
  split
  · exact (told _ _).trans (.same rfl)
  · exact (told _ _).trans (((giveLineBack_within _ _).trans (givePortBack_within _ _)).after rfl)

theorem startSequence_ranges {s : State} (h : RangeLaw s) : RangeLaw (startSequence s) := by
  refine startTest_ranges _ _ _ _ _ ?_
  exact h.within (.same rfl)

/-! ## The supply -/

theorem mainsFails_ranges {s : State} (h : RangeLaw s) : RangeLaw (mainsFails s) := by
  have failed (l r) : RangeLaw { s with supply := { s.supply with mainsSense := false, returnTimer := r, lossTimer := l } } :=
    h.within (.same rfl)
  unfold mainsFails
  dsimp only
  split
  · split
    · split
      · exact enterDormant_ranges (failed _ _)
      · exact failed _ _
    · exact h.within (.same rfl)
    · exact failed _ _
  · exact failed _ _

theorem mainsAppears_within (s : State) : RangesWithin s (mainsAppears s) := by
  unfold mainsAppears
  dsimp only
  split
  · exact (takeWake_within _ _).after rfl
  · exact .same rfl

theorem reportLow_within (s : State) : RangesWithin s (reportLow s) := by
  unfold reportLow
  split
  · exact .refl s
  · exact (raise_within _ _ _ _ _).after rfl

theorem powerLossOnce_within (s : State) : RangesWithin s (powerLossOnce s) := by
  unfold powerLossOnce
  split
  · exact .refl s
  · exact powerLossSequence_within s

theorem mainsLost_ranges {s : State} (h : RangeLaw s) : RangeLaw (mainsLost s) := by
  have lost : RangeLaw { s with supply := { s.supply with mainsPresent := false, lossTimer := none } } := h.within (.same rfl)
  unfold mainsLost
  dsimp only
  split
  · split
    · have held := (enterHold_ranges lost).within (raise_within .supply .major .mainsLost [(s.supply.battery.code : Int)] _)
      split
      · exact dormancyCheck_ranges (held.within (reportLow_within _))
      · exact held
    · exact lost
  · exact lost.within (powerLossOnce_within _)

theorem mainsBack_ranges {s : State} (h : RangeLaw s) : RangeLaw (mainsBack s) := by
  have back : RangeLaw { s with supply := { s.supply with
      mainsPresent := true, returnTimer := none, powerLossDone := false } } := h.within (.same rfl)
  unfold mainsBack
  dsimp only
  split
  · exact (enterFull_ranges back).within (raise_within _ _ _ _ _)
  · split
    · exact back
    · refine RangeLaw.within (enterFull_ranges ?_)
        ((raise_within _ _ _ _ _).trans ((raise_within _ _ _ _ _).trans (awaken_within _)))
      exact back.within (.same rfl)
  · exact back

theorem takeBattery_ranges {s : State} (b : Battery) (h : RangeLaw s) : RangeLaw (takeBattery b s) := by
  have taken : RangeLaw { s with supply.battery := b } := h.within (.same rfl)
  unfold takeBattery
  dsimp only
  split
  · exact h.within (.same rfl)
  · split
    · exact dormancyCheck_ranges (h.within ((reportLow_within _).after rfl))
    · exact taken
  all_goals
    split
    · exact taken
    · exact taken.within (powerLossOnce_within _)

theorem leaveDormant_ranges {s : State} (h : RangeLaw s) : RangeLaw (leaveDormant s) := by
  unfold leaveDormant
  dsimp only
  refine RangeLaw.within ?_ ((raise_within _ _ _ _ _).trans (awaken_within _))
  split
  · refine enterFull_ranges ?_
    exact h.within (.same rfl)
  · exact setAllowance_ranges (k := .hold) h (.same rfl)

end Sys2Proof.Machine
end

section
namespace Sys2Proof.Machine

/-! ## Power-on, restart and loss of power -/

/-- The items of the Factory Store hold margins in order. -/
def LegalItems (items : List ItemState) : Prop := ∀ x, ItemState.programmed x ∈ items → LegalItem x

theorem itemValue_mem {items : List ItemState} {i : Nat} {x : Item} (h : itemValue items i = some x) :
    ItemState.programmed x ∈ items := by
  unfold itemValue at h
  split at h
  · rename_i v hi
    cases h
    exact List.mem_of_getElem? hi
  · cases h

theorem storedMargins_legal {items : List ItemState} (h : LegalItems items) : LegalMargins (storedMargins items) := by
  unfold storedMargins
  split
  · rename_i m hm
    exact h _ (itemValue_mem hm) m rfl
  · unfold LegalMargins
    decide

theorem replicate_legalBank (n : Nat) : LegalBank (List.replicate n ⟨0, 0⟩) := fun r hr => by
  rw [List.eq_of_mem_replicate hr]
  unfold LegalTone
  decide

theorem replicate_legalCaps (n : Nat) : LegalCaps (List.replicate n ⟨12, .active⟩) := fun c hc => by
  rw [List.eq_of_mem_replicate hc]
  decide

/-- A state as a reset leaves it keeps the law when the Factory Store does (R193, R194). -/
theorem fresh_ranges {s : State} (items : LegalItems s.factory.items) (tones : s.tones = freshTones s.factory.items)
    (programming : s.factory.programming = none) (shifts : s.shifts = Shifts.reset)
    (allowance : s.handset.allowance = allowanceOf s.supply.state) (units : unitsHeld s = 0)
    (buffer : bufferFill s.data.buffer = 0) (home : s.mgmt.home = Chan.reset) (operator : s.mgmt.operator = Chan.reset) :
    RangeLaw s where
  margins := tones ▸ storedMargins_legal items
  items := items
  programming p hp := by rw [programming] at hp; cases hp
  rxA := tones ▸ replicate_legalBank 223
  rxB := tones ▸ replicate_legalBank 223
  txA := tones ▸ replicate_legalBank 26
  txB := tones ▸ replicate_legalBank 26
  rxSwap w hw := by rw [shifts] at hw; cases hw
  txSwap w hw := by rw [shifts] at hw; cases hw
  rxCaps := tones ▸ replicate_legalCaps 223
  txCaps := tones ▸ replicate_legalCaps 26
  allowance := allowance
  units := units ▸ Nat.zero_le _
  buffer := buffer ▸ Nat.zero_le _
  homeList := home ▸ Nat.zero_le _
  operatorList := operator ▸ Nat.zero_le _
  carried p hp := by rw [programming] at hp; cases hp

theorem coldState_ranges (queue : List Instr) (flash : List FlashBlock) {items : List ItemState} (supply : Supply)
    (loop1 loop2 : Bool) (h : LegalItems items) : RangeLaw (coldState queue flash items supply loop1 loop2) :=
  fresh_ranges h rfl rfl rfl rfl rfl rfl rfl rfl

theorem set_spoiled_legal {items : List ItemState} (h : LegalItems items) (i : Nat) :
    LegalItems (items.set i .spoiled) := fun x hx => by
  rcases List.mem_or_eq_of_mem_set hx with hx | hx
  · exact h x hx
  · cases hx

theorem set_programmed_legal {items : List ItemState} (h : LegalItems items) (i : Nat) {v : Item} (hv : LegalItem v) :
    LegalItems (items.set i (.programmed v)) := fun x hx => by
  rcases List.mem_or_eq_of_mem_set hx with hx | hx
  · exact h x hx
  · cases hx
    exact hv

theorem losePower_ranges {s : State} (h : RangeLaw s) : RangeLaw (losePower s) := by
  have items : LegalItems (match s.factory.programming with
      | some p => s.factory.items.set p.index .spoiled
      | none => s.factory.items) := by
    split
    · exact set_spoiled_legal h.items _
    · exact h.items
  exact (coldState_ranges s.pending s.archive.flash (Supply.atPowerOn false .none) false false items).within (.same rfl)

theorem announce_within (kind : Int) (s : State) : RangesWithin s (announce kind s) := by
  unfold announce
  dsimp only
  split
  · exact (raise_within _ _ _ _ _).trans (raise_within _ _ _ _ _)
  · exact raise_within _ _ _ _ _

theorem startLine_within (s : State) : RangesWithin s (startLine s) := by
  unfold startLine
  split
  · exact .refl s
  · exact enterHandshake_within s

theorem bringUp_ranges {s : State} (mains : Bool) (battery : Battery) (loop1 loop2 : Bool) (h : RangeLaw s) :
    RangeLaw (bringUp mains battery loop1 loop2 s) := by
  have cold := coldState_ranges s.pending s.archive.flash (Supply.atPowerOn mains battery) loop1 loop2 h.items
  have told := cold.within ((rotate_within _).trans (announce_within 0 _))
  unfold bringUp
  dsimp only
  split
  · exact told.within ((raise_within _ _ _ _ _).trans (startLine_within _))
  · exact told.within (startLine_within _)

theorem closeInterval_within (partialFlag : Bool) (s : State) : RangesWithin s (closeInterval partialFlag s) := .same rfl

theorem abortSilently_within (s : State) : RangesWithin s (abortSilently s) := by
  unfold abortSilently
  split
  · exact .same rfl
  · exact .refl s

theorem restartedState_ranges (origin : Channel) {s : State} (h : LegalItems s.factory.items) :
    RangeLaw (restartedState origin s) := fresh_ranges h rfl rfl rfl rfl rfl rfl rfl rfl

theorem endHold_ranges {s : State} (h : RangeLaw s) : RangeLaw (endHold s) := by
  unfold endHold
  split
  · exact enterDormant_ranges h
  · exact h

theorem restartNow_ranges {s : State} (origin : Channel) (h : RangeLaw s) : RangeLaw (restartNow origin s) := by
  have aborted := (closeInterval_within true s).trans (abortSilently_within _)
  have items : LegalItems (abortSilently (closeInterval true s)).factory.items := aborted.items ▸ h.items
  have fresh := (restartedState_ranges origin items).within ((kickHome_within _).trans (announce_within 1 _))
  exact (endHold_ranges fresh).within (startLine_within _)

/-! ## Requests -/

/-- What the owner of a request leaves: the law, and response lists no longer than they were. -/
structure Served.Keeps (s t : State) : Prop where
  law : RangeLaw t
  home : t.mgmt.home.responses.length ≤ s.mgmt.home.responses.length
  operator : t.mgmt.operator.responses.length ≤ s.mgmt.operator.responses.length

theorem Served.Keeps.of_within {s t : State} (h : RangeLaw s) (w : RangesWithin s t) : Served.Keeps s t :=
  ⟨h.within w, w.home, w.operator⟩

theorem Served.Keeps.refl {s : State} (h : RangeLaw s) : Served.Keeps s s := .of_within h (.refl s)

theorem Served.Keeps.trans {s t u : State} (a : Served.Keeps s t) (b : Served.Keeps t u) : Served.Keeps s u :=
  ⟨b.law, b.home.trans a.home, b.operator.trans a.operator⟩

theorem enterDormant_keeps {s : State} (h : RangeLaw s) : Served.Keeps s (enterDormant s) :=
  ⟨enterDormant_ranges h, (enterDormant_within s).home, (enterDormant_within s).operator⟩

theorem dormancyCheck_keeps {s : State} (h : RangeLaw s) : Served.Keeps s (dormancyCheck s) := by
  unfold dormancyCheck
  split
  · exact enterDormant_keeps h
  · exact .refl h

theorem powerLossCheck_keeps {s : State} (h : RangeLaw s) : Served.Keeps s (powerLossCheck s) := by
  unfold powerLossCheck
  split
  · split
    · exact enterDormant_keeps h
    · exact .refl h
  · exact .refl h

theorem leaveService_keeps {s : State} (h : RangeLaw s) (why : LossReason) (next : LineState) :
    Served.Keeps s (leaveService why next s) := by
  have left := Served.Keeps.of_within h (leaveServiceTo_within why next s)
  have checked := left.trans (dormancyCheck_keeps left.law)
  exact checked.trans (powerLossCheck_keeps checked.law)

theorem mapSelected_mem {α : Type} (sel : Nat → Bool) (f : α → α) (i : Nat) (l : List α) {x : α}
    (h : x ∈ mapSelected sel f i l) : x ∈ l ∨ ∃ y ∈ l, x = f y := by
  induction l generalizing i with
  | nil => cases h
  | cons y rest ih =>
    rw [mapSelected, List.mem_cons] at h
    rcases h with h | h
    · split at h
      · exact .inr ⟨y, List.mem_cons_self, h⟩
      · exact .inl (h ▸ List.mem_cons_self)
    · rcases ih _ h with h | ⟨z, hz, e⟩
      · exact .inl (List.mem_cons_of_mem _ h)
      · exact .inr ⟨z, List.mem_cons_of_mem _ hz, e⟩

theorem fitCap_legal (x : Int) : fitCap x = 0 ∨ (2 ≤ fitCap x ∧ fitCap x ≤ 12) := by
  unfold fitCap
  split
  · exact .inl rfl
  · split
    · exact .inr (by decide)
    · exact .inr (by omega)

theorem writeCaps_keeps {s : State} (dir : Dir) (sel : Nat → Bool) (fn : ToneFn) (value : Int) (h : RangeLaw s) :
    Served.Keeps s (writeCaps dir sel fn value s) := by
  refine ⟨setSettings_ranges h dir fun c hc => ?_, le_rfl, le_rfl⟩
  rcases mapSelected_mem _ _ _ _ hc with hc | ⟨y, -, rfl⟩
  · exact settings_legal h dir c hc
  · exact fitCap_legal _

theorem writeStates_keeps {s : State} (dir : Dir) (sel : Nat → Bool) (st : ToneState) (h : RangeLaw s) :
    Served.Keeps s (writeStates dir sel st s) := by
  have written := setSettings_ranges h dir (l := mapSelected sel (fun c => { c with state := st }) (firstTone dir)
    (s.tones.settings dir)) fun c hc => by
      rcases mapSelected_mem _ _ _ _ hc with hc | ⟨y, hy, rfl⟩
      · exact settings_legal h dir c hc
      · exact settings_legal h dir y hy
  cases dir
  · exact ⟨measured_ranges written _, le_rfl, le_rfl⟩
  · exact ⟨written, le_rfl, le_rfl⟩

theorem serveWriteTones_keeps {s : State} (dir : Dir) (first last stride : Int) (field : ToneField) (fn : ToneFn)
    (value : Int) (h : RangeLaw s) : Served.Keeps s (serveWriteTones dir first last stride field fn value s).1 := by
  unfold serveWriteTones
  split
  · exact .refl h
  · dsimp only
    split
    · exact writeCaps_keeps _ _ _ _ h
    · split
      · exact writeStates_keeps _ _ _ h
      · exact .refl h

theorem enableLine_within (s : State) : RangesWithin s (enableLine s) := by
  unfold enableLine
  dsimp only
  split
  · exact (leaveOff_within _).after rfl
  · exact .same rfl

theorem disableLine_keeps {s : State} (h : RangeLaw s) : Served.Keeps s (disableLine s) := by
  have off : Served.Keeps s { s with line.enabled := false } := .of_within h (.same rfl)
  unfold disableLine
  dsimp only
  split
  · exact off.trans (leaveService_keeps off.law _ _)
  · exact off.trans (.of_within off.law (lineToOff_within _ _))

theorem serveLineControl_keeps {s : State} (action : LineAction) (h : RangeLaw s) :
    Served.Keeps s (serveLineControl action s).1 := by
  unfold serveLineControl
  split
  · exact .of_within h (enableLine_within s)
  · exact disableLine_keeps h
  · split
    · exact leaveService_keeps h _ _
    · exact .of_within h ((enterHandshake_within _).after rfl)
    · exact .of_within h (enterHandshake_within s)
    · exact .of_within h (enterHandshake_within s)
    · exact .of_within h (enterHandshake_within s)
    · exact .refl h
    · exact .refl h

theorem clampNat_le {lo hi : Nat} (x : Int) (h : lo ≤ hi) : clampNat lo hi x ≤ hi := (clampNat_range lo hi x h).2

theorem serveSetMargins_keeps {s : State} (r d m u : Int) (h : RangeLaw s) :
    Served.Keeps s (serveSetMargins r d m u s).1 := by
  unfold serveSetMargins
  dsimp only
  split
  · rename_i ordered
    simp only [marginsOrdered, Bool.and_eq_true, decide_eq_true_eq] at ordered
    exact ⟨{ h with margins := ⟨ordered.1.1, ordered.1.2, ordered.2, clampNat_le u (by decide)⟩ }, le_rfl, le_rfl⟩
  · exact .refl h

theorem clamp_range (lo hi x : Int) (h : lo ≤ hi) : lo ≤ clamp lo hi x ∧ clamp lo hi x ≤ hi := by
  unfold clamp
  split
  · omega
  · split <;> omega

theorem stepped_legal {x : Margins} (h : LegalMargins x) (m : Int) :
    LegalMargins { x with m := (clamp (x.d + 1) (x.u - 1) m).toNat } := by
  obtain ⟨rd, dm, mu, top⟩ := h
  have range := clamp_range (x.d + 1) (x.u - 1) m (by omega)
  exact ⟨rd, by dsimp only; omega, by dsimp only; omega, top⟩

theorem serveStepMargin_keeps {s : State} (way : StepWay) (h : RangeLaw s) :
    Served.Keeps s (serveStepMargin way s).1 :=
  ⟨{ h with margins := stepped_legal h.margins _ }, le_rfl, le_rfl⟩

theorem cancelDown_within (s : State) : RangesWithin s (cancelDown s) := by
  unfold cancelDown
  exact withdrawSchedule_within _ s

theorem serveSetQuiet_within (width : Int) (enable : Bool) (s : State) :
    RangesWithin s (serveSetQuiet width enable s).1 := by
  unfold serveSetQuiet doneOr answered quietOff quietOn
  dsimp only
  split
  · exact .same rfl
  · split
    · exact (cancelDown_within _).after rfl
    · exact .same rfl

theorem leaveRing_within (p : Port) (s : State) : RangesWithin s (leaveRing p s) := by
  have out := onPort_within p PortRec.toDisabled s (by nofun)
  unfold leaveRing
  dsimp only
  split
  · split
    · exact out.trans (onSlot_within _ _ _)
    · exact out.trans (endUnanswered_within _ _ _)
  · exact out

theorem disableCall_within (p : Port) (s : State) : RangesWithin s (disableCall p s) := by
  unfold disableCall
  dsimp only
  split
  · exact (releaseWith_within _ _ s).trans (onPort_within _ _ _ (by nofun))
  · exact onPort_within _ _ _ (by nofun)

theorem disablePort_within (p : Port) (s : State) : RangesWithin s (disablePort p s).1 := by
  unfold disablePort
  split
  any_goals exact onPort_within _ _ _ (by nofun)
  any_goals exact disableCall_within p s
  any_goals exact leaveRing_within p s
  all_goals exact .refl s

theorem serveSetPort_within (port : Int) (action : PortAction) (s : State) :
    RangesWithin s (serveSetPort port action s).1 := by
  unfold serveSetPort
  split
  · exact .refl s
  · split
    · exact disablePort_within _ s
    · unfold answered
      dsimp only
      split
      · exact idleThenLoop_within _ s
      · exact .refl s

theorem serveSetPortTiming_within (port pulse flash make ring : Int) (s : State) :
    RangesWithin s (serveSetPortTiming port pulse flash make ring s).1 := by
  unfold serveSetPortTiming doneOr answered
  split
  · exact .refl s
  · dsimp only
    split
    · refine onPort_within _ (fun r => { r with timing := _ }) s ?_
      exact id
    · exact .refl s

theorem serveEraseArchiveBlock_within (block : Int) (s : State) :
    RangesWithin s (serveEraseArchiveBlock block s).1 := by
  unfold serveEraseArchiveBlock
  split
  · exact .refl s
  · split
    · exact .refl s
    · split
      · exact .refl s
      · split
        · exact .refl s
        · split
          · exact .refl s
          · split
            · exact .refl s
            · exact .same rfl

theorem serveSetArchiveMode_within (mode : Nat) (s : State) : RangesWithin s (serveSetArchiveMode mode s).1 := by
  unfold serveSetArchiveMode answered
  dsimp only
  split
  · exact (rotate_within _).after rfl
  · exact (rotate_within _).after rfl
  · exact .refl s

theorem clearStatus_within (s : State) : RangesWithin s (clearStatus s) := by
  unfold clearStatus
  split
  · exact (archiveReady_within _).after rfl
  · exact .refl s

theorem takeLine_keeps {s : State} (h : RangeLaw s) : Served.Keeps s (takeLine s) := by
  unfold takeLine
  split
  · exact leaveService_keeps h _ _
  · exact .of_within h ((endAttempt_within s).trans (.same rfl))
  · exact .of_within h (.same rfl)

theorem startTest_keeps {s : State} (t : TestType) (port : Option Port) (origin : Origin) (force automatic : Bool)
    (h : RangeLaw s) : Served.Keeps s (startTest t port origin force automatic s) := by
  unfold startTest
  dsimp only
  split
  · exact .of_within h ((onPort_within _ _ _ (by nofun)).after rfl)
  · have claimed : Served.Keeps s { s with tester.claim := some ⟨t, none, origin, force && lineTest t && s.line.state == .service,
        if lineTest t then some s.line.state else none, testDuration t, automatic⟩ } := .of_within h (.same rfl)
    exact claimed.trans (takeLine_keeps claimed.law)

theorem serveRunTest_keeps {s : State} (ch : Channel) (test : Nat) (port : Int) (force : Bool) (h : RangeLaw s) :
    Served.Keeps s (serveRunTest ch test port force s).1 := by
  unfold serveRunTest
  split
  · exact .refl h
  · rename_i t _
    dsimp only
    generalize (if lineTest t then none else portOf port) = target
    split
    · exact .refl h
    · split
      · exact .refl h
      · split
        · exact .refl h
        · split
          · split
            · exact .refl h
            · exact startTest_keeps t none (Channel.origin ch) force false h
          · split
            · exact .refl h
            · rename_i p _ _
              exact startTest_keeps t (some p) (Channel.origin ch) false false h

theorem serveSetTestLimits_within (test : Nat) (warn fail : Int) (s : State) :
    RangesWithin s (serveSetTestLimits test warn fail s).1 := by
  unfold serveSetTestLimits
  split
  · exact .refl s
  · rename_i t _
    dsimp only
    generalize (if t == .portLeak then 0 else clampNat 0 (limitTop t) warn) = w
    split
    · exact .same rfl
    · exact .refl s

theorem checkedItem_legal {v : FactoryValue} {x : Item} (h : checkedItem v = some x) : LegalItem x := by
  rintro x rfl
  cases v
  case margins r d m u =>
    simp only [checkedItem] at h
    split at h
    · rename_i checks
      cases h
      obtain ⟨-, -, -, hu, ordered⟩ := checks
      simp only [inside, Bool.and_eq_true, decide_eq_true_eq] at hu
      simp only [marginsOrdered, Bool.and_eq_true, decide_eq_true_eq] at ordered
      exact ⟨ordered.1.1, ordered.1.2, ordered.2, Int.toNat_le.mpr hu.2⟩
    · cases h
  all_goals simp [checkedItem] at h

/-- A programming begins on a channel with room for its answer (R191, R196, log entry 28). -/
theorem serveFactoryProgram_keeps {s : State} (via : Via) (value : FactoryValue) (h : RangeLaw s)
    (room : (s.chan via.ch).responses.length ≤ 8) : Served.Keeps s (serveFactoryProgram via value s).1 := by
  unfold serveFactoryProgram
  split
  · exact .refl h
  · split
    · exact .refl h
    · split
      · exact .refl h
      · split
        · exact .refl h
        · split
          · exact .refl h
          · rename_i x hx
            refine ⟨{ h with programming := fun p hp => ?_, carried := fun p hp => ?_ }, le_rfl, le_rfl⟩
            · cases hp
              exact checkedItem_legal hx
            · cases hp
              exact room

end Sys2Proof.Machine
end

section
namespace Sys2Proof.Machine

@[simp] theorem serveReadTones_state (ch : Channel) (dir : Dir) (bank : BankSel) (first last : Int) (s : State) :
    (serveReadTones ch dir bank first last s).1 = s := by
  unfold serveReadTones
  split <;> rfl

@[simp] theorem serveReadPort_state (ch : Channel) (port : Int) (s : State) : (serveReadPort ch port s).1 = s := by
  unfold serveReadPort
  split <;> rfl

@[simp] theorem serveReadIntervals_state (ch : Channel) (first count : Int) (s : State) :
    (serveReadIntervals ch first count s).1 = s := by
  unfold serveReadIntervals
  split <;> rfl

@[simp] theorem serveReadArchive_state (ch : Channel) (first count : Int) (s : State) :
    (serveReadArchive ch first count s).1 = s := by
  unfold serveReadArchive
  split <;> rfl

theorem serveLoadThresholds_within (t : List Int) (s : State) : RangesWithin s (serveLoadThresholds t s).1 := by
  unfold serveLoadThresholds
  dsimp only
  split <;> exact .same rfl

theorem serveLoadCadences_within (entries : List (List (Int × Int))) (s : State) :
    RangesWithin s (serveLoadCadences entries s).1 := by
  unfold serveLoadCadences
  split <;> exact .same rfl

theorem serveSetQueueMap_within (map : List Nat) (s : State) : RangesWithin s (serveSetQueueMap map s).1 := by
  unfold serveSetQueueMap
  split <;> exact .same rfl

theorem serveSetThresholds_within (t : List Int) (s : State) : RangesWithin s (serveSetThresholds t s).1 := by
  unfold serveSetThresholds
  split <;> exact .same rfl

theorem serveSetArchiveThreshold_within (severity : Nat) (s : State) :
    RangesWithin s (serveSetArchiveThreshold severity s).1 := by
  unfold serveSetArchiveThreshold
  split <;> exact .same rfl

theorem serveSetRoutes_within (ch : Channel) (side : Side) (flags : List Bool) (master : Bool) (s : State) :
    RangesWithin s (serveSetRoutes ch side flags master s).1 := by
  unfold serveSetRoutes
  split
  · exact .refl s
  · split <;> exact .same rfl

theorem serveFactoryOpen_within (open_ : Bool) (s : State) : RangesWithin s (serveFactoryOpen open_ s).1 :=
  { RangesWithin.refl s with }

/-- A request that begins a programming answers on this channel (R196). -/
def ProgramsFor (v : Via) (i : Instr) : Prop := ∀ w x, i = .factoryProgram w x → w = v

/-- The owner of a request keeps the law of ranges and adds no response (R191). -/
theorem ownerOf_keeps {s : State} (v : Via) (i : Instr) (hi : ProgramsFor v i) (h : RangeLaw s)
    (room : (s.chan v.ch).responses.length ≤ 8) : Served.Keeps s (ownerOf i s).1 := by
  cases i
  case readTones => exact .of_within h (.same (congrArg State.ranged (serveReadTones_state _ _ _ _ _ s)))
  case readPort => exact .of_within h (.same (congrArg State.ranged (serveReadPort_state _ _ s)))
  case readIntervals => exact .of_within h (.same (congrArg State.ranged (serveReadIntervals_state _ _ _ s)))
  case readArchive => exact .of_within h (.same (congrArg State.ranged (serveReadArchive_state _ _ _ s)))
  case writeTones => exact serveWriteTones_keeps _ _ _ _ _ _ _ h
  case lineControl => exact serveLineControl_keeps _ h
  case setMargins => exact serveSetMargins_keeps _ _ _ _ h
  case stepMargin => exact serveStepMargin_keeps _ h
  case loadThresholds => exact .of_within h (serveLoadThresholds_within _ s)
  case setQuiet => exact .of_within h (serveSetQuiet_within _ _ s)
  case setPort => exact .of_within h (serveSetPort_within _ _ s)
  case setPortTiming => exact .of_within h (serveSetPortTiming_within _ _ _ _ _ s)
  case loadCadences => exact .of_within h (serveLoadCadences_within _ s)
  case setQueueMap => exact .of_within h (serveSetQueueMap_within _ s)
  case setThresholds => exact .of_within h (serveSetThresholds_within _ s)
  case setRoutes => exact .of_within h (serveSetRoutes_within _ _ _ _ s)
  case setArchiveThreshold => exact .of_within h (serveSetArchiveThreshold_within _ s)
  case eraseArchiveBlock => exact .of_within h (serveEraseArchiveBlock_within _ s)
  case setArchiveMode => exact .of_within h (serveSetArchiveMode_within _ s)
  case clearArchiveStatus => exact .of_within h (clearStatus_within s)
  case runTest => exact serveRunTest_keeps _ _ _ _ h
  case setTestLimits => exact .of_within h (serveSetTestLimits_within _ _ _ s)
  case factoryProgram via value =>
    cases hi via value rfl
    exact serveFactoryProgram_keeps v value h room
  case factoryOpen => exact .of_within h (serveFactoryOpen_within _ s)
  case factoryClose => exact .of_within h (serveFactoryOpen_within _ s)
  all_goals exact .of_within h (.same rfl)

theorem Served.Keeps.room {s t : State} (k : Served.Keeps s t) (ch : Channel) :
    (t.chan ch).responses.length ≤ (s.chan ch).responses.length := by
  cases ch
  · exact k.home
  · exact k.operator

theorem respond_ranges {s : State} (via : Via) (kind : Nat) (r : Result) (data : List Byte) (h : RangeLaw s)
    (room : (s.chan via.ch).responses.length < 4) : RangeLaw (respond via kind r data s) :=
  addResponse_ranges _ _ h (by omega) fun _ _ _ => by omega

theorem conclude_ranges (via : Via) (kind : Nat) {x : Served} (h : RangeLaw x.1)
    (room : (x.1.chan via.ch).responses.length < 4) : RangeLaw (conclude via kind x) := by
  unfold conclude
  split
  · exact respond_ranges _ _ _ _ h room
  · exact h

theorem channelFree_room {ch : Channel} {s : State} (h : channelFree ch s = true) :
    (s.chan ch).responses.length < 4 := by
  unfold channelFree at h
  simp only [Bool.and_eq_true, decide_eq_true_eq] at h
  exact h.1

theorem concludeOwner_ranges {s : State} (via : Via) (kind : Nat) (i : Instr) (hi : ProgramsFor via i) (h : RangeLaw s)
    (room : (s.chan via.ch).responses.length < 4) : RangeLaw (conclude via kind (ownerOf i s)) := by
  have kept := ownerOf_keeps via i hi h (by omega)
  exact conclude_ranges via kind kept.law ((kept.room via.ch).trans_lt room)

theorem whenDue_ranges {s : State} (due : Bool) (f : State → State) (h : RangeLaw s) (hf : due = true → RangeLaw (f s)) :
    RangeLaw (whenDue due f s) := by
  cases due
  · exact h
  · exact hf rfl

theorem request_ranges {s : State} (via : Via) (kind : Nat) (i : Instr) (hi : ProgramsFor via i) (h : RangeLaw s) :
    RangeLaw (request via kind (ownerOf i) s) := by
  refine whenDue_ranges _ _ h fun free => ?_
  have room := channelFree_room free
  split
  · exact concludeOwner_ranges via kind i hi h room
  · exact respond_ranges _ _ _ _ h room

/-! ## Requests read from their bytes -/

/-- Whatever the reader gives has the property. -/
def Gives {α : Type} (P : α → Prop) (r : Reader α) : Prop := ∀ bytes x rest, r bytes = some (x, rest) → P x

theorem Gives.pure {α : Type} {P : α → Prop} {x : α} (h : P x) : Gives P (pure x) := fun _ _ _ e => by
  cases e
  exact h

theorem Gives.bind {α β : Type} {P : β → Prop} {r : Reader α} {f : α → Reader β} (h : ∀ a, Gives P (f a)) :
    Gives P (r >>= f) := fun bytes x rest e => by
  obtain ⟨⟨a, left⟩, -, e⟩ := Option.bind_eq_some_iff.mp e
  exact h a left x rest e

theorem requestReader_programsFor (v : Via) (kind : Nat) : Gives (ProgramsFor v) (requestReader v kind) := by
  have programs (x : FactoryValue) : ProgramsFor v (.factoryProgram v x) := fun w y e => by
    cases e
    rfl
  unfold requestReader
  split
  case h_38 => exact Gives.bind fun x => Gives.pure (programs x)
  case h_39 => exact fun _ _ _ e => by cases e
  all_goals
    repeat refine Gives.bind fun _ => ?_
    exact Gives.pure (by nofun)

end Sys2Proof.Machine
end

section
namespace Sys2Proof.Machine

theorem readParameters_programsFor {via : Via} {bytes : List Byte} {i : Instr} (h : readParameters via bytes = some i) :
    ProgramsFor via i := by
  unfold readParameters at h
  split at h
  · unfold readRequest at h
    split at h
    · rename_i j e
      cases h
      exact requestReader_programsFor _ _ _ _ _ e
    · cases h
  · cases h

theorem judge_ranges {s : State} (via : Via) (bytes : List Byte) (h : RangeLaw s)
    (room : (s.chan via.ch).responses.length < 4) : RangeLaw (judge via bytes s) := by
  unfold judge
  dsimp only
  split
  · exact respond_ranges _ _ _ _ h room
  · split
    · exact respond_ranges _ _ _ _ h room
    · split
      · exact respond_ranges _ _ _ _ h room
      · exact concludeOwner_ranges _ _ _ (readParameters_programsFor ‹_›) h room

theorem dispatch_ranges {s : State} (ch : Channel) (h : RangeLaw s) (room : (s.chan ch).responses.length < 4) :
    RangeLaw (dispatch ch s) := by
  unfold dispatch
  split
  · exact h
  · cases ch
    · exact judge_ranges _ _ (h.within (.same rfl)) room
    · exact judge_ranges _ _ (h.within (.same rfl)) room

theorem programmingEnds_ranges {s : State} (agrees : Bool) {p : Programming} (h : RangeLaw s)
    (hp : s.factory.programming = some p) : RangeLaw (programmingEnds agrees p s) := by
  have ended := advance_ranges p.left h
  obtain ⟨q, hq, e⟩ : ∃ q, (advance p.left s).factory.programming = some q ∧ (q.value, q.via) = (p.value, p.via) := by
    have e := advance_programming p.left s
    rw [hp] at e
    exact Option.map_eq_some_iff.mp e
  have via : q.via = p.via := congrArg Prod.snd e
  have stored : LegalItems ((advance p.left s).factory.items.set p.index
      (if agrees then .programmed p.value else .spoiled)) := by
    split
    · exact set_programmed_legal ended.items _ (h.programming p hp)
    · exact set_spoiled_legal ended.items _
  exact addResponse_ranges _ _ { ended with items := stored, programming := nofun, carried := nofun }
    (via ▸ ended.carried q hq) nofun

/-! ## The line frame -/

theorem receiverStep_ranges {s t : State} (h : RangeLaw s) (ht : receiverStep s = some t) : RangeLaw t := by
  have discarded (w : List Byte) (b : Bool) :
      RangeLaw (discardFrame { s with framer := { s.framer with window := w, hunting := b } }) :=
    h.within ((count_within _ _).after rfl)
  have delivered (w c : List Byte) (b : Bool) :
      RangeLaw (deliverDown c { s with framer := { s.framer with window := w, hunting := b } }) :=
    deliverDown_ranges _ (h.within (.same rfl))
  have moved (w : List Byte) : RangeLaw (setWindow w s) := h.within (.same rfl)
  unfold receiverStep at ht
  dsimp only at ht
  split at ht
  · cases ht
  · split at ht
    · split at ht
      · cases ht; exact moved _
      · split at ht
        · cases ht
        · split at ht
          · cases ht; exact delivered _ _ _
          · cases ht; exact moved _
    · split at ht
      · cases ht; exact moved _
      · split at ht
        · cases ht; exact discarded _ _
        · split at ht
          · cases ht
          · split at ht
            · cases ht; exact delivered _ _ _
            · cases ht; exact discarded _ _

theorem runReceiver_ranges {s : State} (fuel : Nat) (h : RangeLaw s) : RangeLaw (runReceiver fuel s) := by
  induction fuel generalizing s with
  | zero => exact h
  | succ fuel ih =>
    unfold runReceiver
    split
    · exact ih (receiverStep_ranges h ‹_›)
    · exact h

theorem takeData_ranges {s : State} (l : List Byte) (h : RangeLaw s) : RangeLaw (takeData l s) := by
  induction l generalizing s with
  | nil => exact h
  | cons b rest ih =>
    refine ih (runReceiver_ranges _ ?_)
    exact h.within (.same rfl)

theorem takeWithdraw_within (s : State) : RangesWithin s (takeWithdraw s) := .same rfl

theorem handleMessage_ranges {s : State} (i : Instr) (h : RangeLaw s) : RangeLaw (handleMessage i s) := by
  cases i
  case rateOffer => exact takeOffer_ranges _ _ _ _ _ h
  case rateAccept => exact takeAccept_ranges _ h
  case rateDecline => exact takeDecline_ranges 0 h
  case rateWithdraw => exact h.within (takeWithdraw_within s)
  case swapOrder => exact takeSwapOrder_ranges _ _ _ h
  case swapAck => exact h.within (takeSwapAck_within s)
  case swapReject => exact h.within (takeSwapReject_within 0 s)
  case quietSchedule => exact h.within (takeSchedule_within _ _ _ _ _ s)
  case quietCancel => exact h.within (takeCancel_within _ s)
  case seizeAck => exact h.within (takeSeizeAck_within _ s)
  case seizeNak => exact h.within (takeSeizeNak_within _ s)
  case release => exact h.within (takeRelease_within _ 0 s)
  case ring => exact h.within (takeRing_within _ _ _ s)
  case ringStop => exact h.within (takeRingStop_within _ s)
  case mgmtRequest => exact queueRequest_ranges _ _ _ h
  all_goals exact h

theorem takeOverheadByte_ranges {s : State} (b : Byte) (h : RangeLaw s) : RangeLaw (takeOverheadByte b s) := by
  have collected : RangeLaw { s with overhead.received := (collect s.overhead.received b).1 } := h.within (.same rfl)
  unfold takeOverheadByte
  dsimp only
  split
  · split
    · exact handleMessage_ranges _ collected
    · exact collected
  · exact collected

theorem slotVoice_within (concealed : Bool) (k : Slot) (pair : Byte × Byte) (s : State) :
    RangesWithin s (slotVoice concealed k pair s) := by
  unfold slotVoice
  dsimp only
  split
  · split
    · cases k
      · exact (onPort_within _ _ _ id).after rfl
      · exact (onPort_within _ _ _ id).after rfl
    · exact .refl s
  · exact .refl s

theorem judgeSymbol_within (impulse inside : Bool) (s : State) : RangesWithin s (judgeSymbol impulse inside s) := by
  unfold judgeSymbol
  split
  · exact takeImpulse_within _ _ s
  · exact .same rfl

theorem serviceSymbol_ranges {s : State} (ratios : List Int) (tones : List (List Bool)) (h : RangeLaw s) :
    RangeLaw (serviceSymbol ratios tones s) := by
  unfold serviceSymbol
  dsimp only
  refine takeOverheadByte_ranges _ (RangeLaw.within (takeData_ranges _ (h.within ?_)) (.same rfl))
  exact ((judgeSymbol_within _ _ _).trans ((localVoice_within _).trans
    ((slotVoice_within _ _ _ _).trans (slotVoice_within _ _ _ _)))).after rfl

theorem trainingSymbol_within (s : State) : RangesWithin s (trainingSymbol s) := by
  unfold trainingSymbol
  dsimp only
  split
  · exact (localVoice_within s).trans (.same rfl)
  · exact (localVoice_within s).trans (.same rfl)

theorem receive_ranges {s : State} (ratios : List Int) (tones : List (List Bool)) (h : RangeLaw s) :
    RangeLaw (receive ratios tones s) := by
  unfold receive
  split
  · exact serviceSymbol_ranges _ _ h
  · exact h.within (trainingSymbol_within s)
  · exact h.within (trainingSymbol_within s)
  all_goals exact h.within ((localVoice_within s).trans (.same rfl))

theorem askQueues_within (s : State) : RangesWithin s (askQueues s) := by
  unfold askQueues
  split <;> exact .same rfl

theorem frameSent_within (priority : Bool) (s : State) : RangesWithin s (frameSent priority s) := by
  unfold frameSent
  split
  · exact .same rfl
  · exact (judgeFlow_within _).after rfl

theorem placeFrameByte_within (priority : Bool) (left : List Byte) (s : State) :
    RangesWithin s (placeFrameByte priority left s) := by
  unfold placeFrameByte
  split
  · exact (frameSent_within _ s).trans (askQueues_within _)
  · exact .same rfl

theorem nextByte_within (s : State) : RangesWithin s (nextByte s).2 := by
  unfold nextByte
  split
  · exact placeFrameByte_within _ _ s
  · dsimp only
    split
    · exact askQueues_within s
    · exact .same rfl
  all_goals exact .same rfl

theorem upByte_within (s : State) : RangesWithin s (upByte s).2 := by
  unfold upByte
  split
  · exact (askQueues_within s).trans (nextByte_within _)
  all_goals exact nextByte_within s

theorem upBytes_within (n : Nat) (s : State) : RangesWithin s (upBytes n s).2 := by
  induction n generalizing s with
  | zero => exact .refl s
  | succ n ih => exact (upByte_within s).trans (ih _)

theorem overheadByte_within (s : State) : RangesWithin s (overheadByte s).2 := by
  unfold overheadByte
  split
  · split
    · exact .same rfl
    · exact .refl s
  · exact .refl s

theorem symbolBytes_within (quiet : Bool) (voice1 voice2 : Byte × Byte) (s : State) :
    RangesWithin s (symbolBytes quiet voice1 voice2 s).2 := (overheadByte_within s).trans (upBytes_within _ _)

theorem framed_within (f : Framer) (s : State) : RangesWithin s { s with framer := f } := .same rfl

theorem compose_within (voice1 voice2 : Byte × Byte) (s : State) : RangesWithin s (compose voice1 voice2 s) := by
  have made (t : State) (q : Bool) : RangesWithin t (symbolBytes q voice1 voice2 (arbitrate t)).2 :=
    (arbitrate_within t).trans (symbolBytes_within _ _ _ _)
  unfold compose
  dsimp only
  split
  · exact (((made _ _).trans (count_within _ _)).trans (framed_within _ _)).after rfl
  · exact ((made _ _).trans (framed_within _ _)).after rfl

/-! ## The overhead queue's events -/

theorem dropTaken_length (r : Response) (l : List ListedResponse) : (dropTaken r l).length ≤ l.length :=
  List.length_eraseP_le

theorem afterSending_ranges {s : State} (m : Msg) (c : Nat) (h : RangeLaw s) : RangeLaw (afterSending m c s) := by
  unfold afterSending
  split
  · exact h.within (scheduleSent_within _ s)
  · exact h.within (endDownWindows_within s)
  · refine powerLossCheck_ranges ?_
    exact h.within (.same rfl)
  · rename_i r
    have dropped : RangeLaw { s with mgmt.operator.responses := dropTaken r s.mgmt.operator.responses } :=
      h.within { RangesWithin.refl s with operator := dropTaken_length _ _ }
    exact dropped.within (restartDoneSent_within _ _)
  · exact h

theorem messageEnds_ranges {s : State} (x : Sending) (h : RangeLaw s) : RangeLaw (messageEnds x s) :=
  afterSending_ranges _ _ (h.within ((arbitrate_within _).after rfl))

end Sys2Proof.Machine
end

section
namespace Sys2Proof.Machine

/-! ## Every command -/

/-- A next state of this outcome keeps the law of ranges. -/
def LeavesRanges (o : Host.Outcome State Fault Refusal) : Prop := ∀ t, o = .next t → RangeLaw t

theorem run_ranges {s : State} {f : State → State} (h : RangeLaw s) (hf : RangeLaw (f s)) : LeavesRanges (run f s) :=
  fun t e => by
    cases e
    split
    · exact hf
    · exact h

/-- A command that has an effect only when it is due. -/
theorem due_ranges {s : State} {due : Bool} {f : State → State} (h : RangeLaw s) (hf : RangeLaw (f s)) :
    LeavesRanges (run (whenDue due f) s) := run_ranges h (whenDue_ranges _ _ h fun _ => hf)

theorem due_within {s : State} {due : Bool} {f : State → State} (h : RangeLaw s) (w : RangesWithin s (f s)) :
    LeavesRanges (run (whenDue due f) s) := due_ranges h (h.within w)

theorem asked_ranges {s : State} (via : Via) (kind : Nat) (i : Instr) (hi : ProgramsFor via i) (h : RangeLaw s) :
    LeavesRanges (run (request via kind (ownerOf i)) s) :=
  run_ranges h (request_ranges via kind i hi h)

theorem enterProbe_within (s : State) : RangesWithin s (enterProbe s) := .same rfl

theorem acceptEntry_within (count : Nat) (s : State) : RangesWithin s (acceptEntry count s) := .same rfl

theorem intervalEnds_within (s : State) : RangesWithin s (intervalEnds s) := .same rfl

theorem execRestartTakesEffect_ranges {s : State} (h : RangeLaw s) : LeavesRanges (execRestartTakesEffect s) := by
  refine due_ranges h ?_
  split
  · exact restartNow_ranges _ h
  · exact h

theorem execOverheadMessageSent_ranges {s : State} (h : RangeLaw s) : LeavesRanges (execOverheadMessageSent s) := by
  refine run_ranges h ?_
  split
  · split
    · exact messageEnds_ranges _ h
    · exact h
  · exact h

theorem execTrainReply_ranges {s : State} (kind : Byte) (length content check : List Byte) (h : RangeLaw s) :
    LeavesRanges (execTrainReply kind length content check s) := by
  refine run_ranges h ?_
  split
  · exact whenDue_ranges _ _ h fun _ => h.within (takeReply_within _ _ _ s)
  · exact h

theorem execTxTable_ranges {s : State} (header content check : List Byte) (h : RangeLaw s) :
    LeavesRanges (execTxTable header content check s) := by
  refine run_ranges h ?_
  split
  · exact whenDue_ranges _ _ h fun _ => takeTxTable_ranges _ _ h
  · exact h

theorem execEntry_ranges {s : State} (body check : List Byte) (h : RangeLaw s) : LeavesRanges (execEntry body check s) := by
  refine run_ranges h ?_
  split
  · exact whenDue_ranges _ _ h fun _ => h.within (acceptEntry_within _ s)
  · exact h

theorem execRxShiftStart_ranges {s : State} (h : RangeLaw s) : LeavesRanges (execRxShiftStart s) := by
  refine due_ranges h ?_
  split
  · exact h.within (startShift_within _ s)
  · exact h

theorem execLoadingPassDone_ranges {s : State} (port2First : Bool) (h : RangeLaw s) :
    LeavesRanges (execLoadingPassDone port2First s) := by
  refine run_ranges h ?_
  split
  · exact passEnds_ranges _ _ h
  · exact h

theorem execTxShiftApplied_ranges {s : State} (h : RangeLaw s) : LeavesRanges (execTxShiftApplied s) := by
  refine due_ranges h ?_
  split
  · split
    · exact applyTxShift_ranges _ h
    · exact h
  · exact h

theorem execRxSwapApplied_ranges {s : State} (h : RangeLaw s) : LeavesRanges (execRxSwapApplied s) := by
  refine due_ranges h ?_
  split
  · rename_i w hw
    split
    · refine writeSwap_ranges _ ?_ (h.rxSwap w hw)
      exact { h with rxSwap := nofun }
    · exact h
  · exact h

theorem execTxSwapApplied_ranges {s : State} (h : RangeLaw s) : LeavesRanges (execTxSwapApplied s) := by
  refine due_ranges h ?_
  split
  · rename_i w hw
    split
    · refine writeSwap_ranges _ ?_ (h.txSwap w hw)
      exact { h with txSwap := nofun }
    · exact h
  · exact h

theorem execLoopSenseChange_ranges {s : State} (port : Port) (closed : Bool) (elapsed : Nat) (h : RangeLaw s) :
    LeavesRanges (execLoopSenseChange port closed elapsed s) := by
  have sensed := onPort_within port (PortRec.sense closed) (advanceMs elapsed s) id
  exact run_ranges h ((advanceMs_ranges elapsed h).within sensed)

theorem execRingTimerExpiry_ranges {s : State} (order : Nat) (h : RangeLaw s) :
    LeavesRanges (execRingTimerExpiry order s) := by
  refine due_ranges h ?_
  split
  · exact h.within (endUnanswered_within _ _ s)
  · exact h

theorem execProgramDone_ranges {s : State} (agrees : Bool) (h : RangeLaw s) : LeavesRanges (execProgramDone agrees s) := by
  refine run_ranges h ?_
  split
  · exact programEnds_ranges _ _ h
  · exact h

theorem execEraseComplete_ranges {s : State} (allBlank : Bool) (h : RangeLaw s) :
    LeavesRanges (execEraseComplete allBlank s) := by
  refine run_ranges h ?_
  split
  · split
    · exact eraseEnds_ranges _ _ h
    · exact h
  · exact h

theorem execTestComplete_ranges {s : State} (measured : Measurement) (h : RangeLaw s) :
    LeavesRanges (execTestComplete measured s) := by
  refine run_ranges h ?_
  split
  · split
    · exact h.within (completeTest_within _ _ s)
    · exact h
  · exact h

theorem execMainsSenseChange_ranges {s : State} (present : Bool) (elapsed : Nat) (h : RangeLaw s) :
    LeavesRanges (execMainsSenseChange present elapsed s) := by
  have later := advanceMs_ranges elapsed h
  refine run_ranges h ?_
  cases present
  · exact mainsFails_ranges later
  · exact later.within (mainsAppears_within _)

theorem execPowerLossHoldExpiry_ranges {s : State} (h : RangeLaw s) : LeavesRanges (execPowerLossHoldExpiry s) := by
  refine run_ranges h ?_
  split
  · exact powerLossCheck_ranges (advance_ranges _ h)
  · exact h

theorem execSettleTimerExpiry_ranges {s : State} (h : RangeLaw s) : LeavesRanges (execSettleTimerExpiry s) := by
  refine run_ranges h ?_
  split
  · rename_i n _
    have later := advanceTo_ranges n h
    exact whenDue_ranges _ _ later fun _ => leaveDormant_ranges later
  · exact h

theorem execRequestDispatch_ranges {s : State} (ch : Channel) (h : RangeLaw s) :
    LeavesRanges (execRequestDispatch ch s) :=
  run_ranges h (whenDue_ranges _ _ h fun free => dispatch_ranges ch h (channelFree_room free))

theorem execFactoryProgramDone_ranges {s : State} (agrees : Bool) (h : RangeLaw s) :
    LeavesRanges (execFactoryProgramDone agrees s) := by
  refine run_ranges h ?_
  split
  · exact programmingEnds_ranges _ h ‹_›
  · exact h

theorem exec_ranges {s : State} (i : Instr) (h : RangeLaw s) : LeavesRanges (exec i s) := by
  cases i
  case powerOn =>
    intro t e
    cases e
    exact bringUp_ranges _ _ _ _ (losePower_ranges h)
  case restartTakesEffect => exact execRestartTakesEffect_ranges h
  case cycleBoundary => exact run_ranges h (cycleEnds_ranges _ _ _ h)
  case secondBoundary => exact due_ranges h (secondEnds_ranges h)
  case intervalClose => exact due_within h (intervalEnds_within s)
  case receiveSymbol => exact due_ranges h (receive_ranges _ _ h)
  case transmitSymbol => exact due_within h (compose_within _ _ s)
  case overheadMessageSent => exact execOverheadMessageSent_ranges h
  case overheadRoomFill => exact run_ranges h (h.within (fillRooms_within _ s))
  case receivedMessageDiscarded => exact due_within h (.same rfl)
  case trainingRepeat => exact due_within h (sendTraining_within _ s)
  case trainReply => exact execTrainReply_ranges _ _ _ _ h
  case handshakeTimerExpiry => exact due_within h (failAttempt_within _ s)
  case probeStart => exact due_within h (enterProbe_within s)
  case probeEnd => exact due_within h (leaveProbe_within s)
  case txTable => exact execTxTable_ranges _ _ _ h
  case entry => exact execEntry_ranges _ _ h
  case tablesTimerExpiry => exact due_within h (failAttempt_within _ s)
  case serviceEntry => exact due_ranges h (enterService_ranges _ h)
  case backoffExpiry => exact due_within h (enterHandshake_within s)
  case noSignalTimeout => exact due_ranges h (leaveService_ranges h _ _)
  case retrainSecondsTrigger => exact due_ranges h (leaveService_ranges h _ _)
  case severeSecondsTrigger => exact due_ranges h (leaveService_ranges h _ _)
  case rxShiftStart => exact execRxShiftStart_ranges h
  case loadingPassDone => exact execLoadingPassDone_ranges _ h
  case rateOfferTimeout => exact due_ranges h (offerTimesOut_ranges h)
  case rateOffer => exact due_ranges h (takeOffer_ranges _ _ _ _ _ h)
  case rateAccept => exact due_ranges h (takeAccept_ranges _ h)
  case rateDecline reason => exact due_ranges h (takeDecline_ranges reason h)
  case rateWithdraw => exact due_within h (takeWithdraw_within s)
  case rxShiftApplied => exact due_ranges h (applyRxShift_ranges h)
  case txShiftApplied => exact execTxShiftApplied_ranges h
  case swapOrder => exact due_ranges h (takeSwapOrder_ranges _ _ _ h)
  case swapAck => exact due_within h (takeSwapAck_within s)
  case swapReject reason => exact due_within h (takeSwapReject_within reason s)
  case rxSwapApplied => exact execRxSwapApplied_ranges h
  case txSwapApplied => exact execTxSwapApplied_ranges h
  case swapWaitExpiry => exact run_ranges h (h.within (swapWaitEnds_within s))
  case toneHoldExpiry => exact due_within h (holdEnds_within _ s)
  case predictionTimerExpiry => exact due_within h (.same rfl)
  case windowTailExpiry => exact due_within h (windowCloses_within s)
  case quietScheduleOffer => exact due_within h (offerSchedule_within s)
  case quietSchedule => exact due_within h (takeSchedule_within _ _ _ _ _ s)
  case quietCancel => exact due_within h (takeCancel_within _ s)
  case loopSenseChange => exact execLoopSenseChange_ranges _ _ _ h
  case debounceExpiry => exact due_ranges h ((advanceTo_ranges _ h).within (confirmLoop_within _ _))
  case breakPulseLimitPassed => exact due_ranges h ((advanceTo_ranges _ h).within (completeDigit_within _ _))
  case breakTimerExpiry => exact due_ranges h ((advanceTo_ranges _ h).within (goOnHook_within _ _))
  case makeTimerExpiry => exact due_ranges h ((advanceTo_ranges _ h).within (completeDigit_within _ _))
  case toneTimerExpiry => exact due_within h (onPort_within _ _ _ (by nofun))
  case cadencePhaseEnd => exact due_ranges h (endPhases_ranges h)
  case ringTimerExpiry => exact execRingTimerExpiry_ranges _ h
  case seizureWaitExpiry => exact due_within h (seizureTimesOut_within _ s)
  case seizeAck => exact due_within h (takeSeizeAck_within _ s)
  case seizeNak => exact due_within h (takeSeizeNak_within _ s)
  case release slot reason => exact due_within h (takeRelease_within _ reason s)
  case ring => exact due_within h (takeRing_within _ _ _ s)
  case ringStop => exact due_within h (takeRingStop_within _ s)
  case mgmtRequest => exact due_ranges h (queueRequest_ranges _ _ _ h)
  case homeFrameReceived => exact due_ranges h (judgeFrame_ranges _ _ h)
  case homeLinkUp => exact due_ranges h (linkComesUp_ranges h)
  case homeLinkDown => exact due_ranges h (linkGoesDown_ranges h)
  case pauseRepeatExpiry => exact due_within h (repeatPause_within s)
  case homeFrameSent => exact due_within h (frameGap_within s)
  case homeBufferRoom => exact due_ranges h (fillHome_ranges _ h)
  case programDone => exact execProgramDone_ranges _ h
  case eraseComplete => exact execEraseComplete_ranges _ h
  case testComplete => exact execTestComplete_ranges _ h
  case autoTestStart => exact due_ranges h (startSequence_ranges h)
  case mainsSenseChange => exact execMainsSenseChange_ranges _ _ h
  case mainsLossQualified => exact due_ranges h (mainsLost_ranges (advanceTo_ranges _ h))
  case mainsReturnQualified => exact due_ranges h (mainsBack_ranges (advanceTo_ranges _ h))
  case batteryStateChange => exact due_ranges h (takeBattery_ranges _ h)
  case powerLossHoldExpiry => exact execPowerLossHoldExpiry_ranges h
  case lineWakeSignal => exact due_within h (takeWake_within _ s)
  case settleTimerExpiry => exact execSettleTimerExpiry_ranges h
  case wakeWindowExpiry =>
    refine due_ranges h (dormancyCheck_ranges ?_)
    exact h.within (.same rfl)
  case requestDispatch => exact execRequestDispatch_ranges _ h
  case factoryProgramDone => exact execFactoryProgramDone_ranges _ h
  case factoryProgram via value =>
    refine asked_ranges via 0x27 (.factoryProgram via value) (fun w x e => ?_) h
    cases e
    rfl
  case readStatus via => exact asked_ranges via 0x01 (.readStatus via) (by nofun) h
  case readTones via dir bank first last =>
    exact asked_ranges via 0x02 (.readTones via dir bank first last) (by nofun) h
  case searchTones via dir pattern limit =>
    exact asked_ranges via 0x03 (.searchTones via dir pattern limit) (by nofun) h
  case readLine via => exact asked_ranges via 0x04 (.readLine via) (by nofun) h
  case readImpulse via => exact asked_ranges via 0x05 (.readImpulse via) (by nofun) h
  case readPort via port => exact asked_ranges via 0x06 (.readPort via port) (by nofun) h
  case readSlots via => exact asked_ranges via 0x07 (.readSlots via) (by nofun) h
  case readQueues via => exact asked_ranges via 0x08 (.readQueues via) (by nofun) h
  case readCounters via => exact asked_ranges via 0x09 (.readCounters via) (by nofun) h
  case readIntervals via first count => exact asked_ranges via 0x0A (.readIntervals via first count) (by nofun) h
  case readNoticeState via => exact asked_ranges via 0x0B (.readNoticeState via) (by nofun) h
  case readArchive via first count => exact asked_ranges via 0x0C (.readArchive via first count) (by nofun) h
  case readTestResults via => exact asked_ranges via 0x0D (.readTestResults via) (by nofun) h
  case readSupply via => exact asked_ranges via 0x0E (.readSupply via) (by nofun) h
  case writeTones via dir first last stride field fn value =>
    exact asked_ranges via 0x10 (.writeTones via dir first last stride field fn value) (by nofun) h
  case lineControl via action => exact asked_ranges via 0x11 (.lineControl via action) (by nofun) h
  case setMargins via r d m u => exact asked_ranges via 0x12 (.setMargins via r d m u) (by nofun) h
  case stepMargin via way => exact asked_ranges via 0x13 (.stepMargin via way) (by nofun) h
  case setHoldCeiling via tone => exact asked_ranges via 0x14 (.setHoldCeiling via tone) (by nofun) h
  case loadThresholds via t => exact asked_ranges via 0x15 (.loadThresholds via t) (by nofun) h
  case setQuiet via width enable => exact asked_ranges via 0x16 (.setQuiet via width enable) (by nofun) h
  case setPort via port action => exact asked_ranges via 0x17 (.setPort via port action) (by nofun) h
  case setPortTiming via port pulse flash make ring =>
    exact asked_ranges via 0x18 (.setPortTiming via port pulse flash make ring) (by nofun) h
  case loadCadences via entries => exact asked_ranges via 0x19 (.loadCadences via entries) (by nofun) h
  case setQueueMap via map => exact asked_ranges via 0x1A (.setQueueMap via map) (by nofun) h
  case setThresholds via t => exact asked_ranges via 0x1B (.setThresholds via t) (by nofun) h
  case setRoutes via side flags master => exact asked_ranges via 0x1C (.setRoutes via side flags master) (by nofun) h
  case setArchiveThreshold via severity => exact asked_ranges via 0x1D (.setArchiveThreshold via severity) (by nofun) h
  case eraseArchiveBlock via block => exact asked_ranges via 0x1E (.eraseArchiveBlock via block) (by nofun) h
  case setArchiveMode via mode => exact asked_ranges via 0x1F (.setArchiveMode via mode) (by nofun) h
  case clearArchiveStatus via => exact asked_ranges via 0x20 (.clearArchiveStatus via) (by nofun) h
  case runTest via test port force => exact asked_ranges via 0x21 (.runTest via test port force) (by nofun) h
  case setTestLimits via test warn fail => exact asked_ranges via 0x22 (.setTestLimits via test warn fail) (by nofun) h
  case setWake via port1 port2 line mainsReturn =>
    exact asked_ranges via 0x23 (.setWake via port1 port2 line mainsReturn) (by nofun) h
  case restart via => exact asked_ranges via 0x24 (.restart via) (by nofun) h
  case factoryOpen via => exact asked_ranges via 0x25 (.factoryOpen via) (by nofun) h
  case factoryClose via => exact asked_ranges via 0x26 (.factoryClose via) (by nofun) h
  case lossOfPower => exact run_ranges h (losePower_ranges h)

theorem step_ranges {s : State} (h : RangeLaw s) : LeavesRanges (step s) := by
  unfold step
  split
  · exact exec_ranges _ (h.within (.same rfl))
  · exact run_ranges h (advance_ranges 2 h)

/-- Settles O57: each command's effect keeps the law, and so does the local timebase. -/
theorem rangeLawIsKept : Obligations.RangeLawIsKept := by
  unfold Obligations.RangeLawIsKept
  intro s t h e
  exact step_ranges h t e

end Sys2Proof.Machine
end

section
namespace Sys2Proof.Machine

/-! ## What a command's effect is -/

theorem exec_of_run {c : Instr} {s : State} {f : State → State} (hs : s.powered = true) (h : exec c s = run f s) :
    exec c s = .next (f s) := h.trans (run_powered f s hs)

theorem exec_of_due {c : Instr} {s : State} {due : Bool} {f : State → State} (hs : s.powered = true)
    (h : exec c s = run (whenDue due f) s) (hd : due = true) : exec c s = .next (f s) := by
  subst hd
  exact exec_of_run hs h

/-! ## The record and the gains of a loading pass (R28, R29) -/

theorem gainSum_nonpos (bank : List ToneRec) (h : ∀ r ∈ bank, r.gain ≤ 0) : gainSum bank ≤ 0 := by
  induction bank with
  | nil => rfl
  | cons r rest ih =>
    rw [gainSum_cons]
    have first := h r List.mem_cons_self
    have others := ih fun x hx => h x (List.mem_cons_of_mem r hx)
    omega

theorem loadBank_gain (p : Pass) (m tone : Nat) (s0s : List Int) (cs : List ToneSetting) {r : ToneRec}
    (h : r ∈ loadBank p m tone s0s cs) : -10 ≤ r.gain ∧ r.gain ≤ 0 := by
  obtain ⟨i, s0, c, rfl⟩ := loadBank_mem p m tone s0s cs h
  exact loadTone_gain p m i s0 c

/-- On an ACTIVE tone within the ceiling every fitting number of bits is at most the one loaded. -/
theorem le_loadTone_bits (p : Pass) (m tone : Nat) (s0 : Int) (c : ToneSetting) (ha : c.state = .active)
    (ht : tone ≤ p.ceiling) {b : Nat} (h2 : 2 ≤ b) (h12 : b ≤ 12)
    (he : (threshold p.thresholds b : Int) ≤ s0 + p.credit - m) (hc : b ≤ c.cap) : b ≤ (loadTone p m tone s0 c).bits := by
  have least := le_largestBits p.thresholds c.cap (s0 + p.credit - m) 12 h2 h12 hc he
  simp only [loadTone, ha, ht, and_self, if_true]
  rw [if_neg (by omega)]
  exact least

/-- Settles O32: the search finds the largest fitting number of bits, and the trim of the headroom is never positive. -/
theorem toneIsLoaded : Obligations.ToneIsLoaded := by
  unfold Obligations.ToneIsLoaded
  intro p m tone s0 c
  refine ⟨fun ha ht b ⟨h2, h12, he, hc⟩ => ?_, fun loaded => ?_, fun unloaded => ?_, fun s0s settings => ⟨?_, ?_⟩⟩
  · have least := le_loadTone_bits p m tone s0 c ha ht h2 h12 he hc
    refine ⟨?_, least⟩
    rcases loadTone_cases p m tone s0 c with e | ⟨-, -, x, -, x2, x12, xc, xt, e⟩
    · rw [e] at least
      exact absurd (h2.trans least) (by decide)
    · rw [e]
      exact ⟨x2, x12, xt, xc⟩
  · rcases loadTone_cases p m tone s0 c with e | ⟨ha, ht, x, -, x2, x12, xc, xt, e⟩
    · exact absurd (congrArg ToneRec.bits e) loaded
    · rw [e]
      exact ⟨⟨x2, x12, xt, xc⟩, ha, ht, rfl⟩
  · rcases loadTone_cases p m tone s0 c with e | ⟨-, -, x, -, x2, -, -, -, e⟩
    · exact congrArg ToneRec.gain e
    · rw [e] at unloaded
      exact absurd unloaded (by dsimp only; omega)
  · exact fun x hx => loadBank_gain p m tone s0s settings hx
  · exact gainSum_nonpos _ fun x hx => (loadBank_gain p m tone s0s settings hx).2

/-! ## RX rate shifts and the training pass -/

/-- A pending supply shift starts first, then a DOWN, then an UP shift (R57). -/
theorem shiftKindDue_cases {s : State} {k : ShiftKind} (phase : s.shifts.rx.phase = .idle) (swap : s.shifts.rxSwap = none)
    (free : s.shifts.rx.holdOff = none)
    (h : (k = .supply ∧ s.shifts.rx.supplyPending = true) ∨
      (k = .down ∧ s.shifts.rx.supplyPending = false ∧ s.line.lowSeconds = 10) ∨
      (k = .up ∧ s.shifts.rx.supplyPending = false ∧ s.line.lowSeconds ≠ 10 ∧ s.line.highSeconds = 60)) :
    shiftKindDue s.time.uptime s.line s.shifts = some k := by
  unfold shiftKindDue holdOffOver
  rcases h with ⟨rfl, hp⟩ | ⟨rfl, hp, hl⟩ | ⟨rfl, hp, hl, hh⟩
  · simp [phase, swap, hp]
  · simp [phase, swap, free, hp, hl]
  · simp [phase, swap, free, hp, hl, hh]

theorem requestPass_free (training : Bool) (s : State) (h : s.loader.running = none) :
    requestPass training s = { s with loader.running := some (passInputs training s) } := by
  unfold requestPass
  rw [h]

/-- Settles O31: the kind that is due by R57 starts, and its pass is into the standby bank. -/
theorem rxShiftStarts : Obligations.RxShiftStarts := by
  unfold Obligations.RxShiftStarts
  intro k s hs service boundary phase swap free holdOff due
  have kind := shiftKindDue_cases phase swap holdOff due
  refine ⟨startShift k s, ?_, ?_⟩
  · have started := exec_of_due (c := .rxShiftStart) hs rfl (by simp [service, State.atBoundary, boundary])
    rw [started, kind]
  · have started : startShift k s = _ := requestPass_free false _ free
    rw [started]
    refine ⟨rfl, rfl, rfl, ?_, ⟨_, rfl, rfl, rfl, rfl⟩, rfl⟩
    rcases due with ⟨rfl, -⟩ | ⟨rfl, hp, -⟩ | ⟨rfl, hp, -⟩
    · rfl
    · exact hp
    · exact hp


/-! ## The end of a pass -/

/-- What a pass hands over with the full pass at `m` standing, after `n` slots have been shed (R27). -/
def resultAt (p : Pass) (met : Bool) (m n : Nat) : PassResult :=
  ⟨met, loadBank p m 33 p.s0 p.settings, bitTotal (loadBank p m 33 p.s0 p.settings), m, n⟩

theorem passResult_eq (p : Pass) (v n : Nat) :
    passResult p v n = resultAt p (lowerPasses p v 20 p.m).1 (lowerPasses p v 20 p.m).2.2 n := by
  unfold passResult resultAt
  dsimp only
  rw [lowerPasses_bank]

/-- A full pass at M that meets the floor stands (R30). -/
theorem lowerPasses_met (p : Pass) {v m : Nat} (fuel : Nat)
    (h : 8 + 16 * v ≤ bitTotal (loadBank p m 33 p.s0 p.settings)) :
    lowerPasses p v (fuel + 1) m = (true, loadBank p m 33 p.s0 p.settings, m) := if_pos h

theorem passResult_met (p : Pass) (v n : Nat) (h : 8 + 16 * v ≤ bitTotal (loadBank p p.m 33 p.s0 p.settings)) :
    passResult p v n = resultAt p true p.m n := by
  rw [passResult_eq, lowerPasses_met p 19 h]

/-- A pass that meets its floor sheds nothing (R31). -/
theorem passRounds_of_met (p : Pass) (n v : Nat) (s : State) (h : (passResult p v n).met = true) :
    passRounds p n v s = (s, passResult p v n) := by
  cases v with
  | zero => rfl
  | succ v =>
    unfold passRounds
    rw [h]
    rfl

theorem exec_loadingPassDone (port2First : Bool) {p : Pass} {s : State} (hs : s.powered = true)
    (h : s.loader.running = some p) : exec (.loadingPassDone port2First) s = .next (passEnds port2First p s) := by
  simp only [exec, execLoadingPassDone, run_powered _ _ hs, h]

/-- The bank of the full pass at `m` in its place (R27). -/
def bankWritten (p : Pass) (m : Nat) (s : State) : State :=
  { s with tones := s.tones.setBank .rx p.bank (loadBank p m 33 p.s0 p.settings) }

/-- MARGIN_LOWERED for a pass that meets its floor below M (R30). -/
def marginTold (p : Pass) (met : Bool) (m : Nat) (s : State) : State :=
  if met = true ∧ m < p.m then raise .line .minor .marginLowered [(m : Int)] s else s

/-- What Line Control does with the result of a pass (R27). -/
def handedOver (port2First : Bool) (p : Pass) (r : PassResult) (s : State) : State :=
  if p.ignored then s else if p.training then trainingPassEnds p r s else shiftPassEnds port2First p r s

theorem passEnds_of_rounds (port2First : Bool) {p : Pass} {s u : State} {met : Bool} {m n : Nat}
    (h : passRounds p 0 p.vFloor { s with loader.running := none } = (u, resultAt p met m n)) :
    passEnds port2First p s =
      startWaiting (handedOver port2First p (resultAt p met m n) (marginTold p met m (bankWritten p m u))) := by
  unfold passEnds
  rw [h]
  rfl

theorem marginTold_at_m (p : Pass) (met : Bool) (s : State) : marginTold p met p.m s = s := if_neg (by simp)

theorem startWaiting_none {s : State} (h : s.loader.waiting = false) : startWaiting s = s := by
  simp [startWaiting, h]

theorem tablesReady_bytes : tablesReady = [0x05#8, 0x00#8, 0x00#8] ++ checkBytes [0x05#8, 0x00#8, 0x00#8] := rfl

end Sys2Proof.Machine

namespace Sys2Proof
open Machine

/-- Settles O33: RX_TABLE goes out with the bank of the pass, and TABLES_READY behind it when the TX_TABLE is there. -/
theorem trainingPassEnds : Obligations.TrainingPassEnds := by
  unfold Obligations.TrainingPassEnds
  intro port2First p s hs tables loader training taken bank floor
  have rounds := passRounds_of_met p 0 p.vFloor { s with loader.running := none } (by rw [passResult_met p _ _ floor]; rfl)
  rw [passResult_met p _ _ floor] at rounds
  rw [exec_loadingPassDone port2First hs (congrArg Loader.running loader), passEnds_of_rounds port2First rounds,
    marginTold_at_m]
  unfold handedOver Machine.trainingPassEnds resultAt bankWritten startWaiting readyWhenBoth
  cases ht : s.line.txTableTaken <;> cases hr : s.line.readySent
  all_goals
    simp [sendTraining, loader, bank, training, taken, Tones.setBank, ht, hr, rxTable, tablesReady_bytes]

end Sys2Proof
end

section
namespace Sys2Proof.Machine

/-! ## Tone swaps (R36, R37) -/

theorem reached_now (now : Nat) : reached now now = true := by
  unfold reached posSub
  exact decide_eq_true (by omega)

theorem exec_swapOrder {dir : Dir} {count : Nat} {es : List SwapEntry} {s : State} (hs : s.powered = true)
    (service : s.line.state = .service) : exec (.swapOrder dir count es) s = .next (takeSwapOrder dir count es s) :=
  exec_of_due hs rfl (by simp [service])

/-- An order that passes every check is taken and acknowledged (R37). -/
theorem takeSwapOrder_agreed {dir : Dir} {count : Nat} {es : List SwapEntry} {s : State}
    (agreed : swapFault dir count es s = 0) :
    takeSwapOrder dir count es s = offer .swapAck { s with shifts.txSwap := some ⟨es, count % 256⟩ } := by
  unfold takeSwapOrder
  dsimp only
  rw [agreed, if_pos rfl]

theorem takeSwapAck_first {w : RxSwap} {s : State} (h : s.shifts.rxSwap = some w) (open_ : w.acked = false) :
    takeSwapAck s = { s with shifts.rxSwap := some { w with acked := true, wait := none } } := by
  simp [takeSwapAck, h, open_]

theorem takeSwapReject_waiting {w : RxSwap} {s : State} (reason : Nat) (h : s.shifts.rxSwap = some w)
    (open_ : w.acked = false) (waits : w.wait ≠ none) :
    takeSwapReject reason s = holdTone w.weak { s with shifts.rxSwap := none } := by
  simp [takeSwapReject, h, open_, Option.isSome_iff_ne_none.mpr waits]

theorem swapWaitEnds_due {w : RxSwap} {s : State} (h : s.shifts.rxSwap = some w) (ended : w.wait = some 0) :
    swapWaitEnds s = holdTone w.weak { s with shifts.rxSwap := some { w with wait := none } } := by
  simp [swapWaitEnds, h, ended]

theorem exec_toneHoldExpiry {tone : Nat} {s : State} (hs : s.powered = true) (h : (tone, s.time.uptime) ∈ s.shifts.held) :
    exec (.toneHoldExpiry tone) s = .next (holdEnds tone s) := by
  refine exec_of_due hs rfl ?_
  simp only [holdOver, List.any_eq_true, Bool.and_eq_true, beq_iff_eq]
  exact ⟨_, h, rfl, reached_now _⟩

/-- Settles O38: each answer is the matching case of what the messages and the two timers do. -/
theorem swapsAreAnswered : Obligations.SwapsAreAnswered := by
  unfold Obligations.SwapsAreAnswered
  intro s hs service
  refine ⟨fun count es agreed small room line signal => ?_, fun w hw open_ => ⟨?_, fun reason waits => ?_, fun ended => ?_⟩,
    fun tone held => ⟨_, exec_toneHoldExpiry hs held, ?_, ?_, rfl⟩⟩
  · rw [exec_swapOrder hs service, takeSwapOrder_agreed agreed, Nat.mod_eq_of_lt small]
    exact congrArg _ (offer_room .swapAck _ service room line signal)
  · rw [exec_of_due (c := .swapAck) hs rfl (by simp [service]), takeSwapAck_first hw open_]
  · rw [exec_of_due (c := .swapReject reason) hs rfl (by simp [service]), takeSwapReject_waiting reason hw open_ waits]
    rfl
  · rw [exec_of_run (c := .swapWaitExpiry) hs rfl, swapWaitEnds_due hw ended]
    rfl
  · intro h hh
    simpa using (List.mem_filter.mp hh).2
  · exact fun h hh other => List.mem_filter.mpr ⟨hh, by simpa using other⟩

theorem atBoundary_of_zero {s : State} (h : s.time.symbolNo = 0) : s.atBoundary = true := by simp [State.atBoundary, h]

theorem count_tones (c : Counter) (s : State) : (count c s).tones = s.tones := by
  obtain ⟨p, a, n, e⟩ := count_frame c s
  rw [e]

theorem count_shifts (c : Counter) (s : State) : (count c s).shifts = s.shifts := by
  obtain ⟨p, a, n, e⟩ := count_frame c s
  rw [e]

theorem writeSwap_rx_tones (es : List SwapEntry) (s : State) : (writeSwap .rx es s).tones =
    { s.tones.setBank .rx s.tones.rxActive (writeEntries .rx (s.tones.active .rx) es) with
      meas := followGains s.tones.meas (gainsOf (s.tones.active .rx))
        (gainsOf (writeEntries .rx (s.tones.active .rx) es)) } := by
  unfold writeSwap
  rw [count_tones]
  cases h : s.tones.rxActive <;> simp [recompute, Tones.activeId, Tones.setBank, h]

theorem writeSwap_tx_tones (es : List SwapEntry) (s : State) : (writeSwap .tx es s).tones =
    s.tones.setBank .tx s.tones.txActive (writeEntries .tx (s.tones.active .tx) es) := by
  unfold writeSwap
  rw [count_tones]
  rfl

theorem writeSwap_shifts (d : Dir) (es : List SwapEntry) (s : State) : (writeSwap d es s).shifts = s.shifts :=
  count_shifts _ _

theorem exec_rxSwapApplied {w : RxSwap} {s : State} (hs : s.powered = true) (service : s.line.state = .service)
    (boundary : s.time.symbolNo = 0) (h : s.shifts.rxSwap = some w) (due : w.due = true) :
    exec .rxSwapApplied s = .next (writeSwap .rx w.entries { s with shifts.rxSwap := none }) := by
  simp [exec, execRxSwapApplied, hs, service, atBoundary_of_zero boundary, h, due]

theorem exec_txSwapApplied {w : TxSwap} {s : State} (hs : s.powered = true) (service : s.line.state = .service)
    (boundary : s.time.symbolNo = 0) (h : s.shifts.txSwap = some w) (due : w.swapCount = s.time.cycleCount) :
    exec .txSwapApplied s = .next (writeSwap .tx w.entries { s with shifts.txSwap := none }) := by
  simp [exec, execTxSwapApplied, hs, service, atBoundary_of_zero boundary, h, due]

/-- Settles O39: the bank of the swap's direction is written, and every other table keeps its place. -/
theorem swapsAreApplied : Obligations.SwapsAreApplied := by
  unfold Obligations.SwapsAreApplied
  intro s hs service boundary
  refine ⟨fun w hw due => ⟨_, exec_rxSwapApplied hs service boundary hw due, ?_⟩,
    fun w hw due => ⟨_, exec_txSwapApplied hs service boundary hw due, ?_⟩⟩
  · dsimp only
    rw [writeSwap_rx_tones, writeSwap_shifts]
    cases ha : s.tones.rxActive <;>
      simp [Tones.active, Tones.standby, Tones.activeId, Tones.bank, Tones.setBank, otherBank, ha]
  · dsimp only
    rw [writeSwap_tx_tones, writeSwap_shifts]
    cases ha : s.tones.txActive <;>
      simp [Tones.active, Tones.standby, Tones.activeId, Tones.bank, Tones.setBank, otherBank, ha]

end Sys2Proof.Machine
end

section
namespace Sys2Proof.Machine

/-! ## The measured SNR at a cycle end (R21, R22) -/

theorem RangesWithin.meas {s t : State} (w : RangesWithin s t) : t.tones.meas = s.tones.meas := by
  have e := w.tables
  simp only [Tones.tables, Prod.mk.injEq] at e
  exact e.2.2.2.2.2.2.2

theorem dormancyCheck_meas (s : State) : (dormancyCheck s).tones.meas = s.tones.meas := by
  unfold dormancyCheck
  split
  · exact (enterDormant_within s).meas
  · rfl

theorem slotsAtBoundary_meas (s : State) : (slotsAtBoundary s).tones.meas = s.tones.meas := by
  have laid : (if (freeReleased s).line.state = .service then recompute (freeReleased s) else freeReleased s).tones.meas =
      s.tones.meas := by split <;> rfl
  unfold slotsAtBoundary
  dsimp only
  split
  · exact (dormancyCheck_meas _).trans laid
  · exact laid

theorem startRings_tones (s : State) : (startRings s).tones = s.tones := by
  have granted (start1 start2 : Bool) (t : State) : (grantUnits start1 start2 t).tones = t.tones := by
    cases start1 <;> cases start2 <;> simp [grantUnits]
  unfold startRings
  split
  · exact (granted _ _ _).trans (by simp [onPorts])
  · rfl

theorem orderSwap_meas (s : State) : (orderSwap s).tones.meas = s.tones.meas := by
  unfold orderSwap
  split
  · split
    · rfl
    · exact (offer_within _ _).meas
  · rfl

/-- Of a cycle end only the sample changes S (R22). -/
theorem cycleEnds_meas (samples : List Int) (energy nominal : Nat) (s : State) :
    (cycleEnds samples energy nominal s).tones.meas = (sampleCycle samples (offLineVoice s)).tones.meas := by
  unfold cycleEnds
  dsimp only
  rw [slotsAtBoundary_meas, startRings_tones, orderSwap_meas, (tickCycle_within _).meas]
  exact (judgeCycle_within energy nominal _).meas

theorem takeSamples_getD (first : Bool) (ms : List Meas) (xs : List Int) (i : Nat) (hm : i < ms.length)
    (hx : i < xs.length) : (takeSamples first ms xs).getD i ⟨0, 0⟩ =
      { ms.getD i ⟨0, 0⟩ with s := sampled first (ms.getD i ⟨0, 0⟩).s (xs.getD i 0) } := by
  induction ms generalizing xs i with
  | nil => cases hm
  | cons m ms ih =>
    cases xs with
    | nil => cases hx
    | cons x xs =>
      cases i with
      | zero => rfl
      | succ i => exact ih xs i (Nat.lt_of_succ_lt_succ hm) (Nat.lt_of_succ_lt_succ hx)

theorem clampNat_eq_min_max (lo hi : Nat) (x : Int) (h : lo ≤ hi) :
    (clampNat lo hi x : Int) = max (lo : Int) (min (hi : Int) x) := by
  unfold clampNat clamp
  split
  · omega
  · split <;> omega

theorem sampled_eq (first : Bool) (s : Nat) {x : Int} (h0 : 0 ≤ x) (h255 : x ≤ 255) :
    (sampled first s x : Int) = if first then x else max 0 (min 255 ((s : Int) + (x - s + 4) / 8)) := by
  have inRange : clamp 0 255 x = x := by
    unfold clamp
    rw [if_neg (by omega), if_neg (by omega)]
  unfold sampled
  dsimp only
  rw [inRange]
  cases first
  · exact clampNat_eq_min_max 0 255 _ (by decide)
  · exact Int.toNat_of_nonneg h0

theorem offLineVoice_symbols {s : State} (h : s.line.state = .probe ∨ s.line.state = .service) : offLineVoice s = s := by
  unfold offLineVoice
  rcases h with h | h <;> rw [h]

theorem sampleCycle_meas (samples : List Int) {s : State} (good : 20 ≤ s.tones.goodSymbols)
    (h : s.line.state = .probe ∨ s.line.state = .service) : (sampleCycle samples s).tones.meas =
      takeSamples (s.line.state == .probe && !s.line.probeSampled) s.tones.meas samples := by
  unfold sampleCycle
  rw [if_pos ⟨good, h⟩]

/-- Settles O11: nothing after the sample changes S, and the sample is the step of R22. -/
theorem sampleUpdatesS : Obligations.SampleUpdatesS := by
  unfold Obligations.SampleUpdatesS
  intro samples energy nominal s i hs good line hm hx h0 h255
  refine ⟨_, exec_of_run (c := .cycleBoundary samples energy nominal) hs rfl, ?_⟩
  dsimp only
  rw [cycleEnds_meas, offLineVoice_symbols line, sampleCycle_meas samples good line, takeSamples_getD _ _ _ _ hm hx]
  dsimp only
  rw [sampled_eq _ _ h0 h255]
  simp

end Sys2Proof.Machine
end

section
namespace Sys2Proof.Machine

/-! ## The passes of a request (R30) -/

/-- The passes go down by 4 from `m`, not below R, to the first that meets the floor or to R; `fuel` steps are enough. -/
theorem lowerPasses_spec (p : Pass) (v fuel m : Nat) (low : p.r ≤ m) (enough : m ≤ p.r + 4 * fuel) :
    let x := lowerPasses p v (fuel + 1) m
    (x.1 = true ↔ 8 + 16 * v ≤ bitTotal (loadBank p x.2.2 33 p.s0 p.settings)) ∧ (x.1 = false → x.2.2 = p.r) ∧
      ∃ k, x.2.2 = max (m - 4 * k) p.r ∧
        ∀ j, j < k → bitTotal (loadBank p (max (m - 4 * j) p.r) 33 p.s0 p.settings) < 8 + 16 * v := by
  have here : m = max (m - 4 * 0) p.r := by omega
  induction fuel generalizing m with
  | zero =>
    unfold lowerPasses
    dsimp only
    by_cases met : 8 + 16 * v ≤ bitTotal (loadBank p m 33 p.s0 p.settings)
    · rw [if_pos met]
      exact ⟨by simpa using met, by simp, 0, here, by simp⟩
    · rw [if_neg met, if_pos (by omega)]
      exact ⟨by simpa using met, fun _ => by dsimp only; omega, 0, here, by simp⟩
  | succ fuel ih =>
    unfold lowerPasses
    dsimp only
    by_cases met : 8 + 16 * v ≤ bitTotal (loadBank p m 33 p.s0 p.settings)
    · rw [if_pos met]
      exact ⟨by simpa using met, by simp, 0, here, by simp⟩
    · rw [if_neg met]
      by_cases bottom : m ≤ p.r
      · rw [if_pos bottom]
        exact ⟨by simpa using met, fun _ => by dsimp only; omega, 0, here, by simp⟩
      · rw [if_neg bottom]
        obtain ⟨meets, short, k, hk, below⟩ := ih (max (m - 4) p.r) (by omega) (by omega) (by omega)
        refine ⟨meets, short, k + 1, by omega, fun j hj => ?_⟩
        cases j with
        | zero =>
          rw [← here]
          exact Nat.lt_of_not_le met
        | succ j =>
          have step : max (m - 4 * (j + 1)) p.r = max (max (m - 4) p.r - 4 * j) p.r := by omega
          rw [step]
          exact below j (by omega)

/-! ## The end of a rate-shift pass (R27, R57, R58) -/

theorem judgeHeld_none (p : Port) {s : State} (h : (s.port p).heldRequest = false) : judgeHeld p s = s := by
  simp [judgeHeld, h]

theorem judgeBothHeld_none (port2First : Bool) {s : State} (h1 : s.handset.p1.heldRequest = false)
    (h2 : s.handset.p2.heldRequest = false) :
    (if port2First then judgeHeld .p1 (judgeHeld .p2 s) else judgeHeld .p2 (judgeHeld .p1 s)) = s := by
  rw [judgeHeld_none .p1 h1, judgeHeld_none .p2 h2, judgeHeld_none .p1 h1, ite_self]

/-- The bank of a met pass is offered (R58), with room in the overhead queue and no call held. -/
def shiftOffered (p : Pass) (s : State) : State :=
  { s with
    shifts.rx := { s.shifts.rx with phase := .offered, hold := p.holdCeiling, offerWait := 200 }
    overhead := enqueueLast (.rateOffer p.holdCeiling (offeredTones s)) s.overhead }

theorem shiftPassEnds_offered (port2First : Bool) (p : Pass) (r : PassResult) {s : State} (met : r.met = true)
    (gains : ¬ (s.shifts.rx.kind = .up ∧ r.newB ≤ s.shifts.rx.oldB)) (service : s.line.state = .service)
    (room : s.overhead.queue.length < 16) (line : s.overhead.waitingLine = []) (signal : s.overhead.waitingSignal = [])
    (h1 : s.handset.p1.heldRequest = false) (h2 : s.handset.p2.heldRequest = false) :
    shiftPassEnds port2First p r s = shiftOffered p s := by
  have offered : offer (.rateOffer p.holdCeiling (offeredTones s))
      { s with shifts.rx := { s.shifts.rx with phase := .offered, hold := p.holdCeiling, offerWait := 200 } } =
      shiftOffered p s := offer_room _ _ service room line signal
  unfold shiftPassEnds
  rw [if_pos met, if_neg gains]
  dsimp only
  rw [offered]
  exact judgeBothHeld_none port2First h1 h2

theorem shiftPassEnds_idle (port2First : Bool) (p : Pass) (r : PassResult) {s : State} (met : r.met = true)
    (nothing : s.shifts.rx.kind = .up ∧ r.newB ≤ s.shifts.rx.oldB)
    (h1 : s.handset.p1.heldRequest = false) (h2 : s.handset.p2.heldRequest = false) :
    shiftPassEnds port2First p r s = { s with shifts.rx.phase := .idle } := by
  unfold shiftPassEnds
  rw [if_pos met, if_pos nothing]
  exact judgeBothHeld_none port2First h1 h2

theorem offeredTones_bankWritten (p : Pass) (m : Nat) {s : State} (h : p.bank = otherBank s.tones.rxActive) :
    offeredTones (bankWritten p m s) = (loadBank p m 33 p.s0 p.settings).map fun r => (r.bits, r.gain) := by
  unfold offeredTones bankWritten Tones.standby
  rw [h]
  simp [Tones.activeId]

/-- A rate-shift pass hands its result over in SERVICE (R27). -/
theorem handedOver_shift (port2First : Bool) {p : Pass} (r : PassResult) (s : State) (shift : p.training = false)
    (taken : p.ignored = false) : handedOver port2First p r s = shiftPassEnds port2First p r s := by
  simp [handedOver, shift, taken]


/-! ## What a loss of SERVICE leaves (R54, R55) -/

/-- From `s` to `t` only counts, notices and archive records have changed. -/
def Reported (s t : State) : Prop := ∃ p a n, t = { s with perf := p, archive := a, notices := n }

theorem Reported.refl (s : State) : Reported s s := ⟨_, _, _, rfl⟩

theorem Reported.trans {s t u : State} (h : Reported s t) (k : Reported t u) : Reported s u := by
  obtain ⟨p, a, n, rfl⟩ := h
  obtain ⟨p', a', n', rfl⟩ := k
  exact ⟨p', a', n', rfl⟩

theorem raise_reported (cls : NoticeClass) (sev : Severity) (code : NoticeCode) (ps : List Int) (s : State) :
    Reported s (raise cls sev code ps s) := by
  obtain ⟨a, n, e⟩ := raise_frame cls sev code ps s
  exact ⟨_, a, n, e⟩

theorem raise_perf (cls : NoticeClass) (sev : Severity) (code : NoticeCode) (ps : List Int) (s : State) :
    (raise cls sev code ps s).perf = s.perf := by
  obtain ⟨a, n, e⟩ := raise_frame cls sev code ps s
  rw [e]

theorem count_reported (c : Counter) (s : State) : Reported s (count c s) := count_frame c s

theorem classifySecond_reported (s : State) : Reported s (classifySecond s) := by
  have emptied : Reported s (emptySecond s) := ⟨_, _, _, rfl⟩
  unfold classifySecond
  dsimp only
  split
  · split
    · exact (emptied.trans (count_reported _ _)).trans (count_reported _ _)
    · exact emptied.trans (count_reported _ _)
  · split
    · exact emptied.trans (count_reported _ _)
    · exact emptied

theorem closeSecond_reported (s : State) : Reported s (closeSecond s) := by
  unfold closeSecond
  split
  · exact classifySecond_reported s
  · exact ⟨_, _, _, rfl⟩

theorem giveBack_overhead (m : Msg) (s : State) : (giveBack m s).overhead = s.overhead := by
  obtain ⟨n, g, e⟩ := giveBack_frame m s
  rw [e]

/-- Only NOTICE and MANAGEMENT entries are left in the overhead queue (R15). -/
theorem stopOverhead_queue (s : State) :
    ∀ q ∈ (stopOverhead s).overhead.queue, q.msg.cls = .notice ∨ q.msg.cls = .management := by
  have kept : ∀ q ∈ s.overhead.queue.filter (fun q => q.msg.cls = .notice ∨ q.msg.cls = .management),
      q.msg.cls = .notice ∨ q.msg.cls = .management := fun q hq => by simpa using (List.mem_filter.mp hq).2
  unfold stopOverhead
  dsimp only
  split
  · split
    · rename_i low
      split
      · exact List.forall_mem_cons.mpr ⟨low, kept⟩
      · rw [giveBack_overhead]
        exact kept
    · exact kept
  · exact kept

theorem stopOverhead_quiet (s : State) : (stopOverhead s).overhead.sending = none ∧
    (stopOverhead s).overhead.waitingLine = [] ∧ (stopOverhead s).overhead.waitingSignal = [] ∧
    (stopOverhead s).overhead.received = [] := by
  unfold stopOverhead
  dsimp only
  split
  · split
    · split
      · exact ⟨rfl, rfl, rfl, rfl⟩
      · rw [giveBack_overhead]
        exact ⟨rfl, rfl, rfl, rfl⟩
    · exact ⟨rfl, rfl, rfl, rfl⟩
  · exact ⟨rfl, rfl, rfl, rfl⟩

/-- The parts of a state that only the last step of a loss of SERVICE changes (R55). -/
theorem beforeLoss_frame (why : LossReason) (s : State) : ∃ p a n o g, beforeLoss why s =
    { freeAllSlots s with perf := p, archive := a, notices := n, overhead := o, mgmt := g } := by
  have closed := (raise_reported .line .major .serviceLost [(why.code : Int)] s).trans (closeSecond_reported _)
  unfold beforeLoss
  dsimp only
  obtain ⟨p, a, n, e⟩ : Reported s (if why.countsRetrain then
      count .retrains (closeSecond (raise .line .major .serviceLost [(why.code : Int)] s))
      else closeSecond (raise .line .major .serviceLost [(why.code : Int)] s)) := by
    split
    · exact closed.trans (count_reported _ _)
    · exact closed
  rw [e]
  obtain ⟨o, n', g, e'⟩ := stopOverhead_frame
    (freeAllSlots { s with perf := p, archive := a, notices := n })
  exact ⟨p, a, n', o, g, e'⟩

theorem leaveServiceTo_outOfService (why : LossReason) (next : LineState) (s : State) :
    OutOfService (leaveServiceTo why next s) := by
  obtain ⟨p, a, n, o, g, e⟩ := beforeLoss_frame why s
  have slots : (beforeLoss why s).slots.allFree = true := by
    rw [e]
    rfl
  rw [leaveServiceTo_eq]
  exact {
    slots := slots
    rx := ⟨rfl, rfl⟩
    tx := ⟨rfl, rfl⟩
    shifts := ⟨rfl, rfl, rfl, rfl⟩
    queue := stopOverhead_queue _
    quiet := stopOverhead_quiet _
    schedules := ⟨rfl, rfl, rfl, rfl⟩ }

theorem leaveServiceTo_line (why : LossReason) (next : LineState) (s : State) :
    (leaveServiceTo why next s).line = s.line.afterService why next := by
  obtain ⟨p, a, n, o, g, e⟩ := beforeLoss_frame why s
  rw [leaveServiceTo_eq, e]
  rfl

theorem leaveServiceTo_loader (why : LossReason) (next : LineState) {s : State} {waiting : Bool}
    (h : s.loader = ⟨none, waiting⟩) : (leaveServiceTo why next s).loader = ⟨none, waiting⟩ := by
  obtain ⟨p, a, n, o, g, e⟩ := beforeLoss_frame why s
  rw [leaveServiceTo_eq, e]
  dsimp only [freeAllSlots]
  rw [h]
  rfl

theorem leaveServiceTo_supply (why : LossReason) (next : LineState) (s : State) :
    (leaveServiceTo why next s).supply = { s.supply with powerLossWaiting := false } := by
  obtain ⟨p, a, n, o, g, e⟩ := beforeLoss_frame why s
  rw [leaveServiceTo_eq, e]
  rfl

/-- In FULL without a power-loss hold a loss of SERVICE brings no entry to DORMANT (R183, R185). -/
theorem leaveService_full (why : LossReason) (next : LineState) {s : State} (full : s.supply.state = .full)
    (noHold : s.supply.powerLossHold = none) : leaveService why next s = leaveServiceTo why next s := by
  have supply := leaveServiceTo_supply why next s
  have awake : dormancyCheck (leaveServiceTo why next s) = leaveServiceTo why next s := by
    simp [dormancyCheck, dormancyHolds, supply, full]
  unfold leaveService powerLossCheck
  rw [awake, supply, noHold]

theorem RangesWithin.bank {s t : State} (w : RangesWithin s t) (d : Dir) (k : BankId) :
    t.tones.bank d k = s.tones.bank d k := by
  have e := w.tables
  simp only [Tones.tables, Prod.mk.injEq] at e
  obtain ⟨-, a, b, c, d', -⟩ := e
  cases d <;> cases k
  · exact a
  · exact b
  · exact c
  · exact d'


/-! ## Shedding (R31, R115) -/

theorem count_counters (c : Counter) (s : State) (inside : c.index < s.perf.counters.length)
    (small : s.perf.counters.getD c.index 0 < 65535) :
    (count c s).perf.counters.getD c.index 0 = s.perf.counters.getD c.index 0 + 1 := by
  unfold count
  dsimp only
  rw [if_pos small]
  split
  · rw [raise_perf]
    simp [List.getD_eq_getElem?_getD, inside]
  · simp [List.getD_eq_getElem?_getD, inside]

/-- The call of slot 0, its port `q`, is released with CAPACITY and refused for SHED (R115). -/
def callReleased (q : Port) (s : State) : State :=
  onPort q (PortRec.toRefused .shed) { s with
    slots.s0 := { s.slots.s0 with released := true, wait := none }
    overhead := enqueueLast (.release .s0 .capacity) s.overhead }

/-- The overhead queue has room, and nothing waits for it. -/
structure OverheadFree (s : State) : Prop where
  room : s.overhead.queue.length < 16
  line : s.overhead.waitingLine = []
  signal : s.overhead.waitingSignal = []

/-- Slot 0 carries an ACTIVE call of this port, and is the newest slot (R104, R115). -/
structure NewestCall (q : Port) (s : State) : Prop where
  newest : s.slots.newest = some .s0
  active : s.slots.s0.state = .active
  held : s.slots.s0.released = false
  party : s.slots.s0.party = .port q

theorem shed_newest {q : Port} {s : State} (call : NewestCall q s) (service : s.line.state = .service)
    (free : OverheadFree s) : shed s = raise .phone .major .callShed [0, (q.index : Int), (s.slots.s0.number : Int)]
      (count .callsLost (callReleased q s)) := by
  obtain ⟨newest, active, held, party⟩ := call
  have live : s.slots.s0.live = true := by simp [SlotRec.live, SlotRec.isFree, active, held]
  have choice : shedChoice s = some .s0 := by simp [shedChoice, newest, State.slot, live]
  have notSeizing : s.slots.s0.seizing = false := by simp [SlotRec.seizing, active]
  have notRinging : s.slots.s0.ringing = false := by simp [SlotRec.ringing, active]
  have sent : offer (.release .s0 .capacity) (markReleased .s0 s) = { s with
      slots.s0 := { s.slots.s0 with released := true, wait := none }
      overhead := enqueueLast (.release .s0 .capacity) s.overhead } := offer_room _ _ service free.room free.line free.signal
  have released : releaseWith .s0 .capacity s = offer (.release .s0 .capacity) (markReleased .s0 s) := by
    simp [releaseWith, State.slot, live, notSeizing]
  unfold shed callReleased
  rw [choice]
  simp only [released, sent, State.slot, notRinging, party]
  rfl

/-- The shed call is the only thing besides reports that changes, and CALLS_LOST counts it (R115). -/
theorem shed_newest_reported {q : Port} {s : State} (call : NewestCall q s) (service : s.line.state = .service)
    (free : OverheadFree s) : Reported (callReleased q s) (shed s) := by
  rw [shed_newest call service free]
  exact (count_reported _ _).trans (raise_reported _ _ _ _ _)

theorem shed_newest_counters {q : Port} {s : State} (call : NewestCall q s) (service : s.line.state = .service)
    (free : OverheadFree s) (inside : 9 < s.perf.counters.length) (small : s.perf.counters.getD 9 0 < 65535) :
    (shed s).perf.counters.getD 9 0 = s.perf.counters.getD 9 0 + 1 := by
  have perf : (callReleased q s).perf = s.perf := onPort_perf _ _ _
  rw [shed_newest call service free, raise_perf, ← perf]
  exact count_counters .callsLost _ (perf ▸ inside) (perf ▸ small)

/-- A rate-shift pass short at a floor of one slot sheds it and is made again without it (R31). -/
theorem passRounds_shed (p : Pass) (s : State) (shift : p.training = false)
    (short : (lowerPasses p 1 20 p.m).1 = false) (floor : 8 ≤ bitTotal (loadBank p p.m 33 p.s0 p.settings)) :
    passRounds p 0 1 s = (shed s, resultAt p true p.m 1) := by
  have result : (passResult p 1 0).met = false := short
  unfold passRounds
  simp only [result, shift]
  exact congrArg (Prod.mk (shed s)) (passResult_met p 0 1 floor)

/-! ## The checks of a swap order (R37) -/

/-- The number of the first check that fails, counted from `n`; 0 when none fails. -/
def firstFault : Nat → List Bool → Nat
  | _, [] => 0
  | n, b :: rest => if b then firstFault (n + 1) rest else n

theorem firstFault_eq (n : Nat) (l : List Bool) : firstFault n l =
    if l.findIdx (· == false) < l.length then l.findIdx (· == false) + n else 0 := by
  induction l generalizing n with
  | nil => rfl
  | cons b rest ih =>
    cases b
    · simp [firstFault, List.findIdx_cons]
    · rw [firstFault, if_pos rfl, ih, List.findIdx_cons, List.length_cons]
      generalize rest.findIdx (· == false) = i
      change _ = if i + 1 < _ then i + 1 + n else 0
      split <;> split <;> omega

theorem distinctTones_iff (es : List SwapEntry) : distinctTones es = true ↔ (es.map (·.tone)).Nodup := by
  induction es with
  | nil => simp [distinctTones]
  | cons e rest ih =>
    simp only [distinctTones, Bool.and_eq_true, List.all_eq_true, bne_iff_ne, ih, List.map_cons, List.nodup_cons,
      List.mem_map, not_exists, not_and]

/-- The nine checks of R37 as the swap order's fault is their first failure. -/
def swapChecks (dir : Dir) (count : Nat) (es : List SwapEntry) (s : State) : List Bool := [
  dir == .tx,
  s.shifts.txSwap.isNone && s.shifts.tx.isNone,
  distinctTones es,
  es.all fun e => inDir .tx e.tone,
  es.all fun e => bitsAllowed s.tones.txSet e.tone e.bits,
  es.all fun e => legalGain e.gain,
  bitTotal (writeEntries .tx (s.tones.active .tx) es) == bitTotal (s.tones.active .tx),
  gainSum (writeEntries .tx (s.tones.active .tx) es) ≤ 0,
  swapAhead count s.time.cycleCount]

theorem ite_fault {P : Prop} [Decidable P] {b : Bool} {n x : Nat} {rest : List Bool} (h : P ↔ b = false)
    (others : x = firstFault (n + 1) rest) : (if P then n else x) = firstFault n (b :: rest) := by
  cases b
  · exact if_pos (h.mpr rfl)
  · exact (if_neg fun p => Bool.noConfusion (h.mp p)).trans others

theorem swapFault_eq (dir : Dir) (count : Nat) (es : List SwapEntry) (s : State) :
    swapFault dir count es s = firstFault 1 (swapChecks dir count es s) := by
  have negated (b : Bool) : (!b) = true ↔ b = false := by simp
  refine ite_fault (by simp) (ite_fault ?_ (ite_fault (negated _) (ite_fault (negated _) (ite_fault (negated _)
    (ite_fault (negated _) (ite_fault (by simp) (ite_fault (by simp) (ite_fault (negated _) rfl))))))))
  cases s.shifts.txSwap <;> cases s.shifts.tx <;> simp

/-- The checks as the obligation writes them out. -/
theorem swapChecks_eq (dir : Dir) {count : Nat} (es : List SwapEntry) {s : State} (hc : s.time.cycleCount < 256) :
    swapChecks dir count es s = [
      dir == .tx,
      s.shifts.txSwap.isNone && s.shifts.tx.isNone,
      decide ((es.map (·.tone)).Nodup),
      es.all fun e => 6 ≤ e.tone && e.tone ≤ 31,
      es.all fun e => (e.bits == 0 || (2 ≤ e.bits && e.bits ≤ 12)) &&
        e.bits ≤ (s.tones.txSet.getD (e.tone - 6) ⟨12, .active⟩).cap &&
        ((s.tones.txSet.getD (e.tone - 6) ⟨12, .active⟩).state == .active || e.bits == 0),
      es.all fun e => -10 ≤ e.gain && e.gain ≤ 10,
      bitTotal (writeEntries .tx (s.tones.active .tx) es) == bitTotal (s.tones.active .tx),
      gainSum (writeEntries .tx (s.tones.active .tx) es) ≤ 0,
      4 ≤ (count + 256 - s.time.cycleCount) % 256 && (count + 256 - s.time.cycleCount) % 256 ≤ 64] := by
  have distinct : distinctTones es = decide ((es.map (·.tone)).Nodup) := by
    rw [Bool.eq_iff_iff, distinctTones_iff, decide_eq_true_iff]
  have own : (fun e : SwapEntry => inDir .tx e.tone) = fun e => 6 ≤ e.tone && e.tone ≤ 31 := by
    funext e
    have edge : decide (e.tone < 6 + 26) = decide (e.tone ≤ 31) := decide_eq_decide.mpr (by omega)
    exact congrArg (decide (6 ≤ e.tone) && ·) edge
  have ahead : ahead count s.time.cycleCount = (count + 256 - s.time.cycleCount) % 256 := by
    unfold ahead
    omega
  unfold swapChecks swapAhead
  rw [distinct, own, ahead]
  rfl


/-! ## The end of a rate-shift pass as a command -/

/-- A rate-shift pass into the standby bank is about to end in SERVICE, and no port holds a call back (R27, R106). -/
structure ShiftPassEnding (p : Pass) (s : State) : Prop where
  powered : s.powered = true
  service : s.line.state = .service
  loader : s.loader = ⟨some p, false⟩
  shift : p.training = false
  taken : p.ignored = false
  standby : p.bank = otherBank s.tones.rxActive
  held1 : s.handset.p1.heldRequest = false
  held2 : s.handset.p2.heldRequest = false

/-- The state as the pass ends, before its bank is written. -/
def passOver (s : State) : State := { s with loader := ⟨none, false⟩ }

theorem exec_shiftPass (port2First : Bool) {p : Pass} {s u : State} {met : Bool} {m n : Nat} (c : ShiftPassEnding p s)
    (rounds : passRounds p 0 p.vFloor (passOver s) = (u, resultAt p met m n)) :
    exec (.loadingPassDone port2First) s = .next (startWaiting
      (shiftPassEnds port2First p (resultAt p met m n) (marginTold p met m (bankWritten p m u)))) := by
  have idle : ({ s with loader.running := none } : State) = passOver s := by
    unfold passOver
    rw [c.loader]
  rw [exec_loadingPassDone port2First c.powered (congrArg Loader.running c.loader),
    passEnds_of_rounds port2First (idle ▸ rounds), handedOver_shift port2First _ _ c.shift c.taken]

theorem marginTold_reported (p : Pass) (met : Bool) (m : Nat) (s : State) : Reported s (marginTold p met m s) := by
  unfold marginTold
  split
  · exact raise_reported _ _ _ _ s
  · exact .refl s

/-- The rounds of a request whose passes meet the voice floor (R30, R31). -/
theorem passRounds_met (p : Pass) (s : State) (met : (lowerPasses p p.vFloor 20 p.m).1 = true) :
    passRounds p 0 p.vFloor s = (s, resultAt p true (lowerPasses p p.vFloor 20 p.m).2.2 0) := by
  have result := passResult_eq p p.vFloor 0
  rw [met] at result
  rw [passRounds_of_met p 0 p.vFloor s (by rw [result]; rfl), result]

/-- The bank of a full pass at `m` is offered from a state (R58). -/
def offeredAt (p : Pass) (m : Nat) (t : State) : State :=
  { t with
    shifts.rx := { t.shifts.rx with phase := .offered, hold := p.holdCeiling, offerWait := 200 }
    overhead := enqueueLast (.rateOffer p.holdCeiling ((loadBank p m 33 p.s0 p.settings).map fun r => (r.bits, r.gain)))
      t.overhead }

/-- A met pass is offered and nothing starts behind it, in any state that keeps what the pass's end reads of `u`. -/
theorem shiftPassEnds_offeredAt (port2First : Bool) {p : Pass} {u t : State} {m n : Nat}
    (e : Reported (bankWritten p m u) t) (standby : p.bank = otherBank u.tones.rxActive)
    (gains : ¬ (u.shifts.rx.kind = .up ∧ bitTotal (loadBank p m 33 p.s0 p.settings) ≤ u.shifts.rx.oldB))
    (service : u.line.state = .service) (free : OverheadFree u) (h1 : u.handset.p1.heldRequest = false)
    (h2 : u.handset.p2.heldRequest = false) (idle : u.loader.waiting = false) :
    startWaiting (shiftPassEnds port2First p (resultAt p true m n) t) = offeredAt p m t := by
  obtain ⟨f, a, x, e⟩ := e
  have tones : offeredTones t = (loadBank p m 33 p.s0 p.settings).map fun r => (r.bits, r.gain) := by
    rw [e]
    exact offeredTones_bankWritten p m standby
  rw [shiftPassEnds_offered port2First p (resultAt p true m n) (s := t) rfl (by rw [e]; exact gains) (by rw [e]; exact service)
    (by rw [e]; exact free.room) (by rw [e]; exact free.line) (by rw [e]; exact free.signal) (by rw [e]; exact h1)
    (by rw [e]; exact h2), startWaiting_none (by rw [e]; exact idle)]
  unfold shiftOffered offeredAt
  rw [tones]

theorem exec_shiftPass_offered (port2First : Bool) {p : Pass} {s : State} {m : Nat} (c : ShiftPassEnding p s)
    (rounds : passRounds p 0 p.vFloor (passOver s) = (passOver s, resultAt p true m 0)) (free : OverheadFree s)
    (gains : ¬ (s.shifts.rx.kind = .up ∧ bitTotal (loadBank p m 33 p.s0 p.settings) ≤ s.shifts.rx.oldB)) :
    exec (.loadingPassDone port2First) s =
      .next (offeredAt p m (marginTold p true m (bankWritten p m (passOver s)))) := by
  rw [exec_shiftPass port2First c rounds,
    shiftPassEnds_offeredAt port2First (u := passOver s) (marginTold_reported p true m _) c.standby gains c.service
      ⟨free.room, free.line, free.signal⟩ c.held1 c.held2 rfl]

theorem exec_shiftPass_idle (port2First : Bool) {p : Pass} {s : State} {m : Nat} (c : ShiftPassEnding p s)
    (rounds : passRounds p 0 p.vFloor (passOver s) = (passOver s, resultAt p true m 0))
    (nothing : s.shifts.rx.kind = .up ∧ bitTotal (loadBank p m 33 p.s0 p.settings) ≤ s.shifts.rx.oldB) :
    exec (.loadingPassDone port2First) s =
      .next { marginTold p true m (bankWritten p m (passOver s)) with shifts.rx.phase := .idle } := by
  rw [exec_shiftPass port2First c rounds]
  obtain ⟨f, a, n, e⟩ := marginTold_reported p true m (bankWritten p m (passOver s))
  rw [shiftPassEnds_idle port2First p (resultAt p true m 0) (s := marginTold p true m (bankWritten p m (passOver s))) rfl
    (by rw [e]; exact nothing) (by rw [e]; exact c.held1) (by rw [e]; exact c.held2),
    startWaiting_none (by rw [e]; rfl)]

/-- A pass short at R without a slot to shed ends SERVICE (R31, R54). -/
theorem exec_shiftPass_short (port2First : Bool) {p : Pass} {s : State} (c : ShiftPassEnding p s)
    (short : (lowerPasses p p.vFloor 20 p.m).1 = false) (empty : p.vFloor = 0) (full : s.supply.state = .full)
    (noHold : s.supply.powerLossHold = none) :
    exec (.loadingPassDone port2First) s = .next (leaveServiceTo .lineTooWeak .wait
      (bankWritten p (lowerPasses p p.vFloor 20 p.m).2.2 (passOver s))) := by
  have rounds : passRounds p 0 p.vFloor (passOver s) =
      (passOver s, resultAt p false (lowerPasses p p.vFloor 20 p.m).2.2 0) := by
    have result := passResult_eq p p.vFloor 0
    rw [short] at result
    rw [← result, empty]
    rfl
  have lost := leaveService_full .lineTooWeak .wait (s := bankWritten p (lowerPasses p p.vFloor 20 p.m).2.2 (passOver s))
    full noHold
  have idle := leaveServiceTo_loader .lineTooWeak .wait
    (s := bankWritten p (lowerPasses p p.vFloor 20 p.m).2.2 (passOver s)) (waiting := false) rfl
  have ended : shiftPassEnds port2First p (resultAt p false (lowerPasses p p.vFloor 20 p.m).2.2 0)
      (bankWritten p (lowerPasses p p.vFloor 20 p.m).2.2 (passOver s)) =
        leaveService .lineTooWeak .wait (bankWritten p (lowerPasses p p.vFloor 20 p.m).2.2 (passOver s)) := rfl
  have told : marginTold p false (lowerPasses p p.vFloor 20 p.m).2.2
      (bankWritten p (lowerPasses p p.vFloor 20 p.m).2.2 (passOver s)) = _ := if_neg (by simp)
  rw [exec_shiftPass port2First c rounds, told, ended, lost, startWaiting_none (by rw [idle])]

/-- A pass short at R sheds the one call up and is made again without it (R31, R115). -/
theorem exec_shiftPass_shed (port2First : Bool) {p : Pass} {s : State} {q : Port} (c : ShiftPassEnding p s)
    (short : (lowerPasses p 1 20 p.m).1 = false) (one : p.vFloor = 1)
    (floor : 8 ≤ bitTotal (loadBank p p.m 33 p.s0 p.settings)) (gains : s.shifts.rx.kind ≠ .up) (call : NewestCall q s)
    (free : OverheadFree s) (room : s.overhead.queue.length < 15) :
    exec (.loadingPassDone port2First) s = .next (offeredAt p p.m (bankWritten p p.m (shed (passOver s)))) := by
  have rounds : passRounds p 0 p.vFloor (passOver s) = (shed (passOver s), resultAt p true p.m 1) := by
    rw [one]
    exact passRounds_shed p _ c.shift short floor
  have two : (s.overhead.queue ++ [(⟨s.overhead.nextPlace, .release .s0 .capacity⟩ : QueuedMsg)]).length < 16 := by
    simp only [List.length_append, List.length_singleton]
    omega
  obtain ⟨f, a, x, e⟩ := shed_newest_reported (s := passOver s) ⟨call.newest, call.active, call.held, call.party⟩ c.service
    ⟨free.room, free.line, free.signal⟩
  rw [exec_shiftPass port2First c rounds, marginTold_at_m]
  refine congrArg _ (shiftPassEnds_offeredAt port2First (u := shed (passOver s)) (.refl _) ?_ ?_ ?_ ⟨?_, ?_, ?_⟩ ?_ ?_ ?_)
  all_goals
    rw [e]
    cases q
  any_goals exact c.standby
  any_goals exact fun h => gains h.1
  any_goals exact c.service
  any_goals exact two
  any_goals exact free.line
  any_goals exact free.signal
  any_goals exact c.held1
  any_goals exact c.held2
  all_goals rfl

/-! ## Swap orders as a command -/

/-- A swap order is answered by the first of the nine checks that fails, or agreed (R37). -/
theorem takeSwapOrder_judged (dir : Dir) {count : Nat} (es : List SwapEntry) {s : State} (service : s.line.state = .service)
    (free : OverheadFree s) (small : count < 256) :
    takeSwapOrder dir count es s =
      if (swapChecks dir count es s).findIdx (· == false) < 9 then
        raise .line .minor .orderRejected
          [(dir.code : Int), 0x15, ((swapChecks dir count es s).findIdx (· == false) : Int) + 1]
          { s with overhead := enqueueLast (.swapReject ((swapChecks dir count es s).findIdx (· == false) + 1)) s.overhead }
      else { s with
        shifts.txSwap := some ⟨es, count⟩
        overhead := enqueueLast .swapAck s.overhead } := by
  have fault := swapFault_eq dir count es s
  have nine : (swapChecks dir count es s).length = 9 := rfl
  rw [firstFault_eq, nine] at fault
  split
  · rename_i fails
    rw [if_pos fails] at fault
    unfold takeSwapOrder
    dsimp only
    rw [fault, if_neg (Nat.succ_ne_zero _), offer_room _ s service free.room free.line free.signal]
    rfl
  · rename_i passes
    rw [if_neg passes] at fault
    rw [takeSwapOrder_agreed fault, Nat.mod_eq_of_lt small]
    exact offer_room _ _ service free.room free.line free.signal

/-- Settles O49: the rounds of a request by how they end, and the swap order by its first failing check. -/
theorem passAndSwapAreJudged : Obligations.PassAndSwapAreJudged := by
  unfold Obligations.PassAndSwapAreJudged
  refine ⟨fun p v low top => ?_, fun port2First p s hs service loader shift taken standby _ h1 h2 => ?_,
    fun dir count es s hs service small cycle room line signal => ?_⟩
  · obtain ⟨meets, short, k, hk, below⟩ := lowerPasses_spec p v 19 p.m low (by omega)
    have bank := lowerPasses_bank p v 20 p.m
    exact ⟨bank, by rw [bank]; exact meets, short, k, hk, below⟩
  · have c : ShiftPassEnding p s := ⟨hs, service, loader, shift, taken, standby, h1, h2⟩
    have atM (floor : 8 + 16 * p.vFloor ≤ bitTotal (loadBank p p.m 33 p.s0 p.settings)) :
        passRounds p 0 p.vFloor (passOver s) = (passOver s, resultAt p true p.m 0) := by
      have met := lowerPasses_met p (v := p.vFloor) (m := p.m) 19 floor
      have rounds := passRounds_met p (passOver s) (by rw [met])
      rwa [met] at rounds
    have told {m : Nat} (lowered : m < p.m) (t : State) :
        marginTold p true m t = raise .line .minor .marginLowered [(m : Int)] t := if_pos ⟨rfl, lowered⟩
    refine ⟨fun floor free gains => ?_, fun floor nothing => ?_, fun met lowered => ⟨fun free gains => ?_, fun nothing => ?_⟩,
      fun short empty full noHold => ?_, fun q short one floor gains active held party newest _ room line signal inside small => ?_⟩
    · have offered := exec_shiftPass_offered port2First c (atM floor) ⟨free.1, free.2.1, free.2.2⟩ gains
      rwa [marginTold_at_m] at offered
    · have idle := exec_shiftPass_idle port2First c (atM floor) nothing
      rwa [marginTold_at_m] at idle
    · have offered := exec_shiftPass_offered port2First c (passRounds_met p _ met) ⟨free.1, free.2.1, free.2.2⟩ gains
      rwa [told lowered] at offered
    · have idle := exec_shiftPass_idle port2First c (passRounds_met p _ met) nothing
      rwa [told lowered] at idle
    · refine ⟨_, exec_shiftPass_short port2First c short empty full noHold, ?_⟩
      dsimp only
      rw [leaveServiceTo_line, leaveServiceTo_loader .lineTooWeak .wait (waiting := false) rfl,
        (leaveServiceTo_within _ _ _).bank]
      exact ⟨rfl, rfl, rfl, rfl, Tones.setBank_bank _ _ _ _, leaveServiceTo_outOfService _ _ _⟩
    · have call : NewestCall q s := ⟨newest, active, held, party⟩
      have free : OverheadFree s := ⟨room.trans (by decide), line, signal⟩
      refine ⟨_, exec_shiftPass_shed port2First c (one ▸ short) one floor gains call free room, ?_⟩
      have lost := shed_newest_counters (s := passOver s) ⟨newest, active, held, party⟩ service
        ⟨free.room, line, signal⟩ inside small
      obtain ⟨f, a, x, e⟩ := shed_newest_reported (s := passOver s) ⟨newest, active, held, party⟩ service
        ⟨free.room, line, signal⟩
      rw [e] at lost ⊢
      have written := Tones.setBank_bank s.tones .rx p.bank (loadBank p p.m 33 p.s0 p.settings)
      cases q
      all_goals exact ⟨rfl, rfl, rfl, lost, rfl, written, List.append_assoc _ _ _⟩
  · have judged := exec_swapOrder (dir := dir) (count := count) (es := es) hs service
    rw [takeSwapOrder_judged dir es service ⟨room, line, signal⟩ small, swapChecks_eq dir es cycle] at judged
    exact judged

end Sys2Proof.Machine
end

section
namespace Sys2Proof.Machine

/-! ## How a request is answered (R191) -/

/-- The part has power, and the channel of the request can dispatch it. -/
structure Dispatchable (via : Via) (s : State) : Prop where
  powered : s.powered = true
  free : channelFree via.ch s = true

theorem exec_request {c : Instr} {via : Via} {kind : Nat} {serve : State → Served} {s : State} (d : Dispatchable via s)
    (allowed : originAllowed kind via.ch = true) (h : exec c s = run (request via kind serve) s) :
    exec c s = .next (conclude via kind (serve s)) := by
  rw [h, run_powered _ _ d.powered]
  unfold request
  rw [d.free, whenDue_true, if_pos allowed]

theorem originAllowed_operator (kind : Nat) {ch : Channel} (h : ch = .operator) : originAllowed kind ch = true := by
  rw [h]
  rfl

theorem originAllowed_any {kind : Nat} (h : operatorOnly kind = false) (ch : Channel) : originAllowed kind ch = true := by
  cases ch
  · exact congrArg not h
  · rfl

/-- A value clamped into a range. -/
def fitTo (lo hi x : Int) : Nat := (max lo (min hi x)).toNat

def inBounds (lo hi x : Int) : Bool := lo ≤ x && x ≤ hi

/-- DONE for values in range, DONE_CLAMPED for a clamped one. -/
def resultOf (inRange : Bool) : Result := if inRange then .done else .doneClamped

theorem clampNat_eq_fitTo (lo hi : Nat) (x : Int) (h : lo ≤ hi) : clampNat lo hi x = fitTo lo hi x := by
  rw [fitTo, ← clampNat_eq_min_max lo hi x h, Int.toNat_natCast]

theorem wasClamped_eq_not (lo hi x : Int) : wasClamped lo hi x = !inBounds lo hi x := by
  unfold wasClamped inBounds
  rw [Bool.eq_iff_iff]
  simp only [Bool.or_eq_true, decide_eq_true_eq, Bool.not_eq_true', Bool.and_eq_false_iff, decide_eq_false_iff_not, not_le]

/-- The answer of a setting written with some of its values clamped. -/
theorem conclude_doneOr (via : Via) (kind : Nat) {clamped inRange : Bool} (h : clamped = !inRange) (s : State) :
    conclude via kind (doneOr clamped s) = respond via kind (resultOf inRange) [] s := by
  subst h
  cases inRange <;> rfl

theorem conclude_ite (via : Via) (kind : Nat) {P Q : Prop} [Decidable P] [Decidable Q] (h : P ↔ Q) (x y : Served) :
    conclude via kind (if P then x else y) = if Q then conclude via kind x else conclude via kind y := by
  by_cases hp : P
  · rw [if_pos hp, if_pos (h.mp hp)]
  · rw [if_neg hp, if_neg fun hq => hp (h.mpr hq)]

/-! ## Margins, ceiling, thresholds, cadences, severities and limits (R24, R25, R64, R65, R102, R149, R178) -/

theorem marginsOrdered_iff (r d m u : Nat) : marginsOrdered r d m u = true ↔ r ≤ d ∧ d < m ∧ m < u := by
  simp [marginsOrdered, and_assoc]

section
variable {via : Via} {s : State} (d : Dispatchable via s)
include d

theorem exec_setMargins (op : via.ch = .operator) (r dm m u : Int) :
    exec (.setMargins via r dm m u) s = .next
      (if fitTo 0 63 r ≤ fitTo 0 63 dm ∧ fitTo 0 63 dm < fitTo 0 63 m ∧ fitTo 0 63 m < fitTo 0 63 u then
        respond via 0x12 (resultOf (inBounds 0 63 r && inBounds 0 63 dm && inBounds 0 63 m && inBounds 0 63 u)) []
          { s with tones.margins := ⟨fitTo 0 63 r, fitTo 0 63 dm, fitTo 0 63 m, fitTo 0 63 u⟩ }
      else respond via 0x12 .badParameter [] s) := by
  have fits (x : Int) : clampNat 0 63 x = fitTo 0 63 x := clampNat_eq_fitTo 0 63 x (by decide)
  rw [exec_request (c := .setMargins via r dm m u) d (originAllowed_operator _ op) rfl]
  unfold serveSetMargins
  simp only [fits]
  rw [conclude_ite via 0x12 (marginsOrdered_iff _ _ _ _) (doneOr _ _), conclude_doneOr via 0x12 ?_]
  · rfl
  · simp [wasClamped_eq_not]

theorem exec_stepMargin_up (op : via.ch = .operator) (low : s.tones.margins.d < s.tones.margins.m)
    (high : s.tones.margins.m < s.tones.margins.u) :
    exec (.stepMargin via .up) s = .next
      (if s.tones.margins.m + 4 < s.tones.margins.u then
        respond via 0x13 .done [] { s with tones.margins.m := s.tones.margins.m + 4 }
      else respond via 0x13 .doneClamped [] { s with tones.margins.m := s.tones.margins.u - 1 }) := by
  rw [exec_request (c := .stepMargin via .up) d (originAllowed_operator _ op) rfl]
  unfold serveStepMargin
  dsimp only
  split
  · rename_i room
    have fits : clamp ((s.tones.margins.d : Int) + 1) (s.tones.margins.u - 1) (s.tones.margins.m + 4) =
        ((s.tones.margins.m + 4 : Nat) : Int) := by
      unfold clamp
      rw [if_neg (by omega), if_neg (by omega)]
      rfl
    rw [conclude_doneOr via 0x13 (inRange := true) (by simp; omega), fits]
    rfl
  · rename_i over_
    have top : clamp ((s.tones.margins.d : Int) + 1) (s.tones.margins.u - 1) (s.tones.margins.m + 4) =
        ((s.tones.margins.u - 1 : Nat) : Int) := by
      unfold clamp
      rw [if_neg (by omega), if_pos (by omega)]
      omega
    rw [conclude_doneOr via 0x13 (inRange := false) (by simp; omega), top]
    rfl

theorem exec_stepMargin_down (op : via.ch = .operator) (low : s.tones.margins.d < s.tones.margins.m)
    (high : s.tones.margins.m < s.tones.margins.u) :
    exec (.stepMargin via .down) s = .next
      (if s.tones.margins.d + 5 ≤ s.tones.margins.m then
        respond via 0x13 .done [] { s with tones.margins.m := s.tones.margins.m - 4 }
      else respond via 0x13 .doneClamped [] { s with tones.margins.m := s.tones.margins.d + 1 }) := by
  rw [exec_request (c := .stepMargin via .down) d (originAllowed_operator _ op) rfl]
  unfold serveStepMargin
  dsimp only
  split
  · rename_i room
    have fits : clamp ((s.tones.margins.d : Int) + 1) (s.tones.margins.u - 1) (s.tones.margins.m - 4) =
        ((s.tones.margins.m - 4 : Nat) : Int) := by
      unfold clamp
      rw [if_neg (by omega), if_neg (by omega)]
      omega
    rw [conclude_doneOr via 0x13 (inRange := true) (by simp; omega), fits]
    rfl
  · rename_i under
    have bottom : clamp ((s.tones.margins.d : Int) + 1) (s.tones.margins.u - 1) (s.tones.margins.m - 4) =
        ((s.tones.margins.d + 1 : Nat) : Int) := by
      unfold clamp
      rw [if_pos (by omega)]
      rfl
    rw [conclude_doneOr via 0x13 (inRange := false) (by simp; omega), bottom]
    rfl

theorem exec_setHoldCeiling (op : via.ch = .operator) (tone : Int) : exec (.setHoldCeiling via tone) s = .next
    (respond via 0x14 (resultOf (inBounds 48 255 tone)) [] { s with tones.holdCeiling := fitTo 48 255 tone }) := by
  rw [exec_request (c := .setHoldCeiling via tone) d (originAllowed_operator _ op) rfl]
  unfold serveSetHoldCeiling
  rw [conclude_doneOr via 0x14 (wasClamped_eq_not 48 255 tone), clampNat_eq_fitTo 48 255 tone (by decide)]
  rfl

end

theorem rising_iff (t : List Nat) : rising t = true ↔ t.Pairwise (· < ·) := by
  rw [← List.isChain_iff_pairwise]
  induction t with
  | nil => simp [rising]
  | cons a rest ih =>
    cases rest with
    | nil => simp [rising]
    | cons b rest => simp [rising, ih]

theorem any_wasClamped (lo hi : Int) (l : List Int) : l.any (wasClamped lo hi) = !l.all (inBounds lo hi) := by
  rw [List.not_all_eq_any_not]
  exact congrArg l.any (funext (wasClamped_eq_not lo hi))

theorem map_clampNat (lo hi : Nat) (h : lo ≤ hi) (l : List Int) : l.map (clampNat lo hi) = l.map (fitTo lo hi) :=
  congrArg (List.map · l) (funext fun x => clampNat_eq_fitTo lo hi x h)

theorem validThresholds_iff (t : List Int) : validThresholds (t.map (fitTo 0 255)) = true ↔
    t.length = 11 ∧ (t.map (fitTo 0 255)).Pairwise (· < ·) := by
  have small : ∀ x ∈ t.map (fitTo 0 255), x ≤ 255 := by
    intro x hx
    obtain ⟨y, -, rfl⟩ := List.mem_map.mp hx
    unfold fitTo
    omega
  have all : (t.map (fitTo 0 255)).all (· ≤ 255) = true := List.all_eq_true.mpr fun x hx => decide_eq_true (small x hx)
  simp only [validThresholds, all, Bool.and_true, Bool.and_eq_true, rising_iff, beq_iff_eq, List.length_map]

theorem cadenceShape_iff (es : List (List (Int × Int))) :
    cadenceShape es = true ↔ es.length = 8 ∧ ∀ e ∈ es, 1 ≤ e.length ∧ e.length ≤ 4 := by
  simp [cadenceShape]

theorem any_cadenceClamped (es : List (List (Int × Int))) : es.any cadenceClamped =
    !es.all fun e => e.all fun p => inBounds 1 100 p.1 && inBounds 1 100 p.2 := by
  rw [List.not_all_eq_any_not]
  refine congrArg es.any (funext fun e => ?_)
  rw [List.not_all_eq_any_not]
  exact congrArg e.any (funext fun p => by simp [wasClamped_eq_not])

theorem clampCadence_eq (e : List (Int × Int)) :
    clampCadence e = e.map fun p => (fitTo 1 100 p.1, fitTo 1 100 p.2) := by
  have fits (x : Int) : clampNat 1 100 x = fitTo 1 100 x := clampNat_eq_fitTo 1 100 x (by decide)
  simp only [clampCadence, fits]

/-- The limits of SET_TEST_LIMITS clamped; PORT_LEAK has no warn limit (R178). -/
def limitsGiven (test : TestType) (warn fail : Int) : Limits :=
  ⟨if test = .portLeak then 0 else fitTo 0 (limitTop test) warn, fitTo 0 (limitTop test) fail⟩

section
variable {via : Via} {s : State} (d : Dispatchable via s)
include d

theorem exec_loadThresholds (op : via.ch = .operator) (t : List Int) : exec (.loadThresholds via t) s = .next
    (if t.length = 11 ∧ (t.map (fitTo 0 255)).Pairwise (· < ·) then
      respond via 0x15 (resultOf (t.all (inBounds 0 255))) [] { s with tones.thresholds := t.map (fitTo 0 255) }
    else respond via 0x15 .badParameter [] s) := by
  have fits : t.map (clampNat 0 255) = t.map (fitTo 0 255) := map_clampNat 0 255 (by decide) t
  rw [exec_request (c := .loadThresholds via t) d (originAllowed_operator _ op) rfl]
  unfold serveLoadThresholds
  dsimp only
  rw [fits, conclude_ite via 0x15 (validThresholds_iff t) (doneOr _ _), conclude_doneOr via 0x15 (any_wasClamped 0 255 t)]
  rfl

theorem exec_loadCadences (op : via.ch = .operator) (es : List (List (Int × Int))) : exec (.loadCadences via es) s = .next
    (if es.length = 8 ∧ ∀ e ∈ es, 1 ≤ e.length ∧ e.length ≤ 4 then
      respond via 0x19 (resultOf (es.all fun e => e.all fun p => inBounds 1 100 p.1 && inBounds 1 100 p.2)) []
        { s with handset.cadences := es.map fun e => e.map fun p => (fitTo 1 100 p.1, fitTo 1 100 p.2) }
    else respond via 0x19 .badParameter [] s) := by
  rw [exec_request (c := .loadCadences via es) d (originAllowed_operator _ op) rfl]
  unfold serveLoadCadences
  rw [conclude_ite via 0x19 (cadenceShape_iff es) (doneOr _ _), conclude_doneOr via 0x19 (any_cadenceClamped es),
    funext clampCadence_eq]
  rfl

theorem exec_setArchiveThreshold (op : via.ch = .operator) (x : Severity) :
    exec (.setArchiveThreshold via x.code) s = .next
      (respond via 0x1D .done [] { s with notices.archiveThreshold := x }) := by
  rw [exec_request (c := .setArchiveThreshold via x.code) d (originAllowed_operator _ op) rfl]
  cases x <;> rfl

theorem exec_setTestLimits (op : via.ch = .operator) (test : TestType) (warn fail : Int) :
    exec (.setTestLimits via test.index warn fail) s = .next
      (if limitsOrdered test (limitsGiven test warn fail).warn (limitsGiven test warn fail).fail then
        respond via 0x22
          (resultOf ((test == .portLeak || inBounds 0 (limitTop test) warn) && inBounds 0 (limitTop test) fail)) []
          { s with tester.limits := s.tester.limits.set test.index (limitsGiven test warn fail) }
      else respond via 0x22 .badParameter [] s) := by
  have named : TestType.ofIndex test.index = some test := by cases test <;> rfl
  have fits (x : Int) : clampNat 0 (limitTop test) x = fitTo 0 (limitTop test) x := clampNat_eq_fitTo 0 _ x (Nat.zero_le _)
  rw [exec_request (c := .setTestLimits via test.index warn fail) d (originAllowed_operator _ op) rfl]
  unfold serveSetTestLimits
  simp only [named, fits, beq_iff_eq]
  rw [conclude_ite via 0x22 Iff.rfl (doneOr _ _), conclude_doneOr via 0x22 ?_]
  · rfl
  · simp only [wasClamped_eq_not, Bool.not_and, Bool.not_or]

end

end Sys2Proof.Machine
end

section
namespace Sys2Proof.Machine

/-! ## WRITE_TONES (R40) -/

theorem mapSelected_eq_mapIdx {α : Type} (sel : Nat → Bool) (f : α → α) (i : Nat) (l : List α) :
    mapSelected sel f i l = l.mapIdx fun j x => if sel (i + j) then f x else x := by
  induction l generalizing i with
  | nil => rfl
  | cons x rest ih =>
    rw [mapSelected, ih, List.mapIdx_cons]
    simp only [Nat.add_zero, Nat.add_assoc, Nat.add_comm 1]

theorem anyFitted_eq (sel : Nat → Bool) (fn : ToneFn) (value : Int) (b k : Nat) (l : List ToneSetting) :
    anyFitted sel fn value (b + k) l = !(l.zipIdx k).all fun x =>
      !sel (b + x.2) || ((fitCap (capResult fn x.1.cap value) : Nat) : Int) == capResult fn x.1.cap value := by
  induction l generalizing k with
  | nil => rfl
  | cons c rest ih =>
    rw [anyFitted, Nat.add_assoc, ih, List.zipIdx_cons, List.all_cons]
    simp [bne]

/-- The tones of a group write, counted from the first tone of the direction. -/
def chosen (dir : Dir) (first last : Nat) (stride : Int) (i : Nat) : Bool :=
  first ≤ firstTone dir + i && firstTone dir + i ≤ last && (firstTone dir + i - first) % fitTo 1 16 stride == 0

theorem selected_eq_chosen (dir : Dir) (first last : Nat) (stride : Int) (i : Nat) :
    selected first last (clampNat 1 16 stride) (firstTone dir + i) = chosen dir first last stride i := by
  rw [clampNat_eq_fitTo 1 16 stride (by decide)]
  rfl

section
variable {via : Via} {s : State} (d : Dispatchable via s) (dir : Dir) {first last : Nat} (stride : Int)
  (order : first ≤ last) (top : last ≤ 255)
include d order top

/-- A group write of tones in order within 0..255 goes on to its field (R40). -/
theorem exec_writeTones (field : ToneField) (fn : ToneFn) (value : Int) :
    exec (.writeTones via dir first last stride field fn value) s = .next (conclude via 0x10
      (match field with
      | .cap => doneOr (wasClamped 1 16 stride || anyFitted (selected first last (clampNat 1 16 stride)) fn value
          (firstTone dir) (s.tones.settings dir)) (writeCaps dir (selected first last (clampNat 1 16 stride)) fn value s)
      | .state =>
        match fn, writableState value with
        | .set, some st => doneOr (wasClamped 1 16 stride) (writeStates dir (selected first last (clampNat 1 16 stride)) st s)
        | _, _ => answered .badParameter s)) := by
  rw [exec_request (c := .writeTones via dir first last stride field fn value) d (originAllowed_any rfl _) rfl]
  unfold serveWriteTones
  rw [if_neg (by omega)]
  rfl

theorem exec_writeTones_cap (fn : ToneFn) (value : Int) :
    exec (.writeTones via dir first last stride .cap fn value) s = .next (respond via 0x10
      (resultOf (inBounds 1 16 stride && (s.tones.settings dir).zipIdx.all fun x => !chosen dir first last stride x.2 ||
        ((fitCap (capResult fn x.1.cap value) : Nat) : Int) == capResult fn x.1.cap value)) []
      { s with tones := s.tones.setSettings dir ((s.tones.settings dir).mapIdx fun i c =>
          if chosen dir first last stride i then ⟨fitCap (capResult fn c.cap value), c.state⟩ else c) }) := by
  have all := anyFitted_eq (selected first last (clampNat 1 16 stride)) fn value (firstTone dir) 0 (s.tones.settings dir)
  simp only [selected_eq_chosen] at all
  rw [exec_writeTones d dir stride order top]
  dsimp only
  rw [conclude_doneOr via 0x10 (by rw [← Nat.add_zero (firstTone dir), all, wasClamped_eq_not, ← Bool.not_and])]
  unfold writeCaps
  simp only [mapSelected_eq_mapIdx, selected_eq_chosen]

theorem exec_writeTones_state (st : ToneState) (writable : st ≠ .retired) :
    exec (.writeTones via dir first last stride .state .set st.code) s = .next (respond via 0x10
      (resultOf (inBounds 1 16 stride)) [] { s with
        tones :=
          let t := s.tones.setSettings dir ((s.tones.settings dir).mapIdx fun i c =>
            if chosen dir first last stride i then ⟨c.cap, st⟩ else c)
          match dir with
          | .rx => { t with meas := t.meas.mapIdx fun i m => if chosen dir first last stride i then ⟨m.s, 0⟩ else m }
          | .tx => t }) := by
  have named : writableState st.code = some st := by
    cases st
    · rfl
    · rfl
    · exact absurd rfl writable
  rw [exec_writeTones d dir stride order top]
  simp only [named]
  rw [conclude_doneOr via 0x10 (wasClamped_eq_not 1 16 stride)]
  unfold writeStates
  cases dir
  · have measured (i : Nat) : selected first last (clampNat 1 16 stride) (33 + i) = chosen .rx first last stride i :=
      selected_eq_chosen .rx first last stride i
    simp only [mapSelected_eq_mapIdx, selected_eq_chosen, measured]
  · simp only [mapSelected_eq_mapIdx, selected_eq_chosen]

theorem exec_writeTones_refused (fn : ToneFn) (value : Int) (h : fn ≠ .set ∨ (value ≠ 0 ∧ value ≠ 1)) :
    exec (.writeTones via dir first last stride .state fn value) s = .next (respond via 0x10 .badParameter [] s) := by
  rw [exec_writeTones d dir stride order top]
  dsimp only
  rcases h with h | ⟨h0, h1⟩
  · cases fn
    · exact absurd rfl h
    all_goals rfl
  · have none_ : writableState value = none := by simp [writableState, h0, h1]
    rw [none_]
    cases fn <;> rfl

end

/-! ## SET_QUIET (R76, R78) -/

section
variable {via : Via} {s : State} (d : Dispatchable via s) (width : Int)
include d

theorem exec_setQuiet (enable : Bool) : exec (.setQuiet via width enable) s = .next (respond via 0x16
    (resultOf (inBounds 1 4 width)) [] (if enable then quietOn (fitTo 1 4 width) s else quietOff (fitTo 1 4 width) s)) := by
  rw [exec_request (c := .setQuiet via width enable) d (originAllowed_any rfl _) rfl]
  unfold serveSetQuiet
  dsimp only
  rw [conclude_doneOr via 0x16 (wasClamped_eq_not 1 4 width), clampNat_eq_fitTo 1 4 width (by decide)]
  rfl

end

theorem quietOn_eq (w : Nat) (s : State) : quietOn w s = { s with impulse := { s.impulse with
    quietEnable := true, width := w, exchangeCancel := false
    due := s.impulse.due || (s.impulse.state == .locked && s.line.state == .service &&
      (!s.impulse.quietEnable || s.impulse.width != w || s.impulse.exchangeCancel)) } } := by
  unfold quietOn
  dsimp only
  rw [Bool.and_comm (s.impulse.state == .locked && s.line.state == .service)]

/-- SET_QUIET with enable off, before a schedule is cancelled (R78). -/
def quietEnded (w : Nat) (s : State) : State := { s with impulse := { s.impulse with quietEnable := false, width := w } }

theorem quietOff_eq (w : Nat) (s : State) : quietOff w s =
    if s.impulse.quietEnable = true ∧ (s.impulse.state == .locked && s.line.state == .service) = true then
      cancelDown (quietEnded w s) else quietEnded w s := by
  unfold quietOff quietEnded
  simp only [Bool.and_eq_true, beq_iff_eq]

/-- A cancel with no schedule outstanding and one in force sends QUIET_CANCEL (R76). -/
theorem cancelDown_inForce {s : State} (down : s.impulse.down.isSome = true) (out : s.impulse.downOut = none)
    (service : s.line.state = .service) (free : OverheadFree s) : cancelDown s = { s with
      impulse := { s.impulse with due := false }
      overhead := enqueueLast .quietCancel s.overhead } := by
  unfold cancelDown withdrawSchedule
  simp only [down, out]
  exact offer_room _ _ service free.room free.line free.signal

/-- A cancel of an outstanding schedule that has begun transmission sends QUIET_CANCEL behind it (R76). -/
theorem cancelDown_begun {s : State} {o : Outstanding} (out : s.impulse.downOut = some o)
    (begun : ∀ q ∈ s.overhead.queue, isQuietSchedule q.msg = false) (service : s.line.state = .service)
    (free : OverheadFree s) : cancelDown s = { s with
      impulse := { s.impulse with due := false }
      overhead := enqueueLast .quietCancel s.overhead } := by
  have sent : unsent isQuietSchedule { s with impulse := { s.impulse with due := false } } = false := by
    simpa [unsent, free.line, free.signal] using begun
  unfold cancelDown withdrawSchedule
  simp only [sent, Bool.false_eq_true, and_false, if_false]
  rw [if_pos (by simp [out])]
  exact offer_room _ _ service free.room free.line free.signal

/-- A cancel takes back an outstanding schedule that is still in the queue, and sends QUIET_CANCEL for one in force (R76). -/
theorem cancelDown_unsent {s : State} {o : Outstanding} (out : s.impulse.downOut = some o)
    (queued : ∃ q ∈ s.overhead.queue, isQuietSchedule q.msg = true) (service : s.line.state = .service)
    (free : OverheadFree s) : cancelDown s = { s with
      impulse := { s.impulse with due := false, downOut := none }
      overhead :=
        let kept := s.overhead.queue.filter fun q => !isQuietSchedule q.msg
        { s.overhead with
          queue := if s.impulse.down.isSome then kept ++ [⟨s.overhead.nextPlace, .quietCancel⟩] else kept
          nextPlace := if s.impulse.down.isSome then s.overhead.nextPlace + 1 else s.overhead.nextPlace } } := by
  have waits : unsent isQuietSchedule { s with impulse := { s.impulse with due := false } } = true := by
    simpa [unsent, free.line, free.signal] using queued
  have taken : withdraw isQuietSchedule { s with impulse := { s.impulse with due := false, downOut := none } } = { s with
      impulse := { s.impulse with due := false, downOut := none }
      overhead := { s.overhead with queue := s.overhead.queue.filter fun q => !isQuietSchedule q.msg } } := by
    unfold withdraw
    simp [free.line, free.signal]
  have outSome : s.impulse.downOut.isSome = true := by rw [out]; rfl
  unfold cancelDown withdrawSchedule
  simp only [waits, outSome, and_self, if_true, taken, Option.isSome_none, Bool.or_false]
  cases s.impulse.down.isSome
  · rfl
  · exact offer_room (s := { s with
      impulse := { s.impulse with due := false, downOut := none }
      overhead := { s.overhead with queue := s.overhead.queue.filter fun q => !isQuietSchedule q.msg } }) _ service
      ((List.length_filter_le _ _).trans_lt free.room) free.line free.signal

end Sys2Proof.Machine
end

section
namespace Sys2Proof.Machine

/-! ## SET_PORT_TIMING and the number of a port (R100, R101) -/

theorem portOf_index (p : Port) : portOf p.index = some p := by cases p <;> rfl

theorem portOf_none {n : Int} (one : n ≠ 1) (two : n ≠ 2) : portOf n = none := by simp [portOf, one, two]

section
variable {via : Via} {s : State} (d : Dispatchable via s)
include d

theorem exec_setPort (n : Int) (action : PortAction) :
    exec (.setPort via n action) s = .next (conclude via 0x17 (serveSetPort n action s)) :=
  exec_request (c := .setPort via n action) d (originAllowed_any rfl _) rfl

theorem exec_setPortTiming (n a b c e : Int) :
    exec (.setPortTiming via n a b c e) s = .next (conclude via 0x18 (serveSetPortTiming n a b c e s)) :=
  exec_request (c := .setPortTiming via n a b c e) d (originAllowed_any rfl _) rfl

theorem exec_setPort_unknown {n : Int} (one : n ≠ 1) (two : n ≠ 2) (action : PortAction) :
    exec (.setPort via n action) s = .next (respond via 0x17 .badParameter [] s) := by
  rw [exec_setPort d]
  unfold serveSetPort
  rw [portOf_none one two]
  rfl

theorem exec_setPortTiming_unknown {n : Int} (one : n ≠ 1) (two : n ≠ 2) (a b c e : Int) :
    exec (.setPortTiming via n a b c e) s = .next (respond via 0x18 .badParameter [] s) := by
  rw [exec_setPortTiming d]
  unfold serveSetPortTiming
  rw [portOf_none one two]
  rfl

theorem exec_setPort_disable (p : Port) :
    exec (.setPort via p.index .disable) s = .next (conclude via 0x17 (disablePort p s)) := by
  rw [exec_setPort d]
  unfold serveSetPort
  rw [portOf_index]

theorem exec_setPort_enable (p : Port) : exec (.setPort via p.index .enable) s = .next (respond via 0x17 .done []
    (if (s.port p).state = .disabled then idleThenLoop p s else s)) := by
  rw [exec_setPort d]
  unfold serveSetPort
  rw [portOf_index]
  rfl

theorem exec_setPortTiming_known (p : Port) (a b c e : Int) :
    exec (.setPortTiming via p.index a b c e) s = .next
      (if fitTo 60 150 a + 100 < fitTo 300 1000 b then
        respond via 0x18
          (resultOf (inBounds 60 150 a && inBounds 300 1000 b && inBounds 100 300 c && inBounds 10 600 e)) []
          (s.setPort p { s.port p with
            timing := ⟨fitTo 60 150 a, fitTo 300 1000 b, fitTo 100 300 c, fitTo 10 600 e⟩ })
      else respond via 0x18 .badParameter [] s) := by
  have pulse : clampNat 60 150 a = fitTo 60 150 a := clampNat_eq_fitTo 60 150 a (by decide)
  have flash : clampNat 300 1000 b = fitTo 300 1000 b := clampNat_eq_fitTo 300 1000 b (by decide)
  have make : clampNat 100 300 c = fitTo 100 300 c := clampNat_eq_fitTo 100 300 c (by decide)
  have ring : clampNat 10 600 e = fitTo 10 600 e := clampNat_eq_fitTo 10 600 e (by decide)
  rw [exec_setPortTiming d]
  unfold serveSetPortTiming
  simp only [portOf_index, pulse, flash, make, ring]
  rw [conclude_ite via 0x18 Iff.rfl (doneOr _ _), conclude_doneOr via 0x18 ?_]
  · rfl
  · simp only [wasClamped_eq_not, Bool.not_and]

/-! ## Disabling a port that holds no call (R100) -/

theorem exec_disable_quiet {p : Port} (h : (s.port p).state = .idle ∨ (s.port p).state = .refused ∨
    (s.port p).state = .noService ∨ (s.port p).state = .silent) :
    exec (.setPort via p.index .disable) s = .next (respond via 0x17 .done [] (s.setPort p (s.port p).toDisabled)) := by
  rw [exec_setPort_disable d]
  unfold disablePort
  rcases h with h | h | h | h
  all_goals
    rw [h]
    rfl

theorem exec_disable_disabled {p : Port} (h : (s.port p).state = .disabled) :
    exec (.setPort via p.index .disable) s = .next (respond via 0x17 .done [] s) := by
  rw [exec_setPort_disable d]
  unfold disablePort
  rw [h]
  rfl

theorem exec_disable_testing {p : Port} (h : (s.port p).state = .testing) :
    exec (.setPort via p.index .disable) s = .next (respond via 0x17 .refusedState [] s) := by
  rw [exec_setPort_disable d]
  unfold disablePort
  rw [h]
  rfl

/-! ## Disabling a port in a call (R100, R109, R113) -/

theorem exec_disable_call {p : Port} {k : Slot} (h : (s.port p).state = .connected ∨ (s.port p).state = .seizing)
    (slot : (s.port p).slot = some k) : exec (.setPort via p.index .disable) s = .next (respond via 0x17 .done []
      (onPort p PortRec.toDisabled (releaseWith k .disabled s))) := by
  rw [exec_setPort_disable d]
  unfold disablePort disableCall
  rw [slot]
  rcases h with h | h
  all_goals
    rw [h]
    rfl

theorem exec_disable_ringing {p : Port} (h : (s.port p).state = .ringing) :
    exec (.setPort via p.index .disable) s = .next (respond via 0x17 .done [] (leaveRing p s)) := by
  rw [exec_setPort_disable d]
  unfold disablePort
  rw [h]
  rfl

end

/-- The slot of a disabled port is released and the port DISABLED, with a message sent (R100, R113). -/
def disabledSending (p : Port) (k : Slot) (m : Msg) (s : State) : State :=
  { (s.setSlot k { s.slot k with released := true, wait := none }).setPort p (s.port p).toDisabled with
    overhead := enqueueLast m s.overhead }

/-- The releasing message finds room: it joins the queue, behind whatever the release has done to the slot. -/
theorem offer_release_room (k : Slot) (why : ReleaseReason) {s : State} (r : SlotRec) (service : s.line.state = .service)
    (free : OverheadFree s) : offer (.release k why) (s.setSlot k r) =
      { s.setSlot k r with overhead := enqueueLast (.release k why) s.overhead } := by
  have sent := offer_room (.release k why) (s.setSlot k r) (by rw [State.setSlot_line]; exact service)
    (by rw [State.setSlot_overhead]; exact free.room) (by rw [State.setSlot_overhead]; exact free.line)
    (by rw [State.setSlot_overhead]; exact free.signal)
  rw [sent, State.setSlot_overhead]
  rfl

theorem releaseWith_active (k : Slot) (why : ReleaseReason) {s : State} (active : (s.slot k).state = .active)
    (held : (s.slot k).released = false) (service : s.line.state = .service) (free : OverheadFree s) :
    releaseWith k why s = { s.setSlot k { s.slot k with released := true, wait := none } with
      overhead := enqueueLast (.release k why) s.overhead } := by
  have live : (s.slot k).live = true := by simp [SlotRec.live, SlotRec.isFree, active, held]
  have settled : (s.slot k).seizing = false := by simp [SlotRec.seizing, active]
  unfold releaseWith
  simp only [live, settled]
  exact offer_release_room k why _ service free

theorem SlotRec.live_of_seizing {r : SlotRec} (seizing : r.seizing = true) (held : r.released = false) : r.live = true := by
  simp only [SlotRec.seizing, Bool.and_eq_true, beq_iff_eq] at seizing
  obtain ⟨⟨reserved, -⟩, -⟩ := seizing
  simp [SlotRec.live, SlotRec.isFree, reserved, held]

/-- With nothing waiting for room, a message is unsent when it stands in the queue. -/
theorem unsent_free (p : Msg → Bool) {s : State} (free : OverheadFree s) :
    unsent p s = s.overhead.queue.any fun q => p q.msg := by
  simp [unsent, free.line, free.signal]

theorem withdraw_free (p : Msg → Bool) {s : State} (free : OverheadFree s) : withdraw p s =
    { s with overhead.queue := s.overhead.queue.filter fun q => !p q.msg } := by
  simp [withdraw, free.line, free.signal]

/-- The release of a slot whose SEIZE has begun transmission counts the answer that is still to come (R109). -/
theorem releaseWith_seizing_begun (k : Slot) (why : ReleaseReason) {s : State} (seizing : (s.slot k).seizing = true)
    (held : (s.slot k).released = false) (begun : ∀ q ∈ s.overhead.queue, isSeize k q.msg = false)
    (service : s.line.state = .service) (free : OverheadFree s) :
    releaseWith k why s =
      { s.setSlot k { s.slot k with released := true, wait := none, stale := satInc 15 (s.slot k).stale } with
        overhead := enqueueLast (.release k why) s.overhead } := by
  have live := SlotRec.live_of_seizing seizing held
  have sent : unsent (isSeize k) s = false := by
    rw [unsent_free _ free]
    simpa using begun
  unfold releaseWith
  simp only [live, seizing, sent, markReleased, onSlot, State.setSlot_slot, State.setSlot_setSlot]
  exact offer_release_room k why _ service free

/-- The release of a slot whose SEIZE is still in the queue takes it back and sends nothing (R109, R113). -/
theorem releaseWith_seizing_unsent (k : Slot) (why : ReleaseReason) {s : State} (seizing : (s.slot k).seizing = true)
    (held : (s.slot k).released = false) (queued : ∃ q ∈ s.overhead.queue, isSeize k q.msg = true) (free : OverheadFree s) :
    releaseWith k why s = { s.setSlot k { s.slot k with released := true, wait := none } with
      overhead.queue := s.overhead.queue.filter fun q => !isSeize k q.msg } := by
  have live := SlotRec.live_of_seizing seizing held
  have waits : unsent (isSeize k) s = true := by
    rw [unsent_free _ free]
    simpa using queued
  unfold releaseWith
  simp only [live, seizing, waits, withdraw_free _ free]
  cases k <;> rfl

section
variable {via : Via} {s : State} (d : Dispatchable via s) {p : Port} {k : Slot} (slot : (s.port p).slot = some k)
include d slot

theorem exec_disable_connected (h : (s.port p).state = .connected) (active : (s.slot k).state = .active)
    (held : (s.slot k).released = false) (service : s.line.state = .service) (free : OverheadFree s) :
    exec (.setPort via p.index .disable) s =
      .next (respond via 0x17 .done [] (disabledSending p k (.release k .disabled) s)) := by
  rw [exec_disable_call d (.inl h) slot, releaseWith_active k .disabled active held service free]
  cases p <;> cases k <;> rfl

theorem exec_disable_seizing_begun (h : (s.port p).state = .seizing) (seizing : (s.slot k).seizing = true)
    (held : (s.slot k).released = false) (begun : ∀ q ∈ s.overhead.queue, isSeize k q.msg = false)
    (service : s.line.state = .service) (free : OverheadFree s) :
    exec (.setPort via p.index .disable) s = .next (respond via 0x17 .done []
      ((disabledSending p k (.release k .disabled) s).setSlot k { s.slot k with
        released := true, wait := none, stale := satInc 15 (s.slot k).stale })) := by
  rw [exec_disable_call d (.inr h) slot, releaseWith_seizing_begun k .disabled seizing held begun service free]
  cases p <;> cases k <;> rfl

theorem exec_disable_seizing_unsent (h : (s.port p).state = .seizing) (seizing : (s.slot k).seizing = true)
    (held : (s.slot k).released = false) (queued : ∃ q ∈ s.overhead.queue, isSeize k q.msg = true) (free : OverheadFree s) :
    exec (.setPort via p.index .disable) s = .next (respond via 0x17 .done []
      { (s.setSlot k { s.slot k with released := true, wait := none }).setPort p (s.port p).toDisabled with
        overhead.queue := s.overhead.queue.filter fun q => !isSeize k q.msg }) := by
  rw [exec_disable_call d (.inr h) slot, releaseWith_seizing_unsent k .disabled seizing held queued free]
  cases p <;> cases k <;> rfl

/-! ## Disabling a RINGING port (R100, R112) -/

/-- The order of a port that rings alone ends with NO_ANSWER. -/
theorem exec_disable_alone {order : Nat} (h : (s.port p).state = .ringing) (ordered : (s.port p).order = some order)
    (alone : (s.port (otherPort p)).state ≠ .ringing) (service : s.line.state = .service) (free : OverheadFree s) :
    exec (.setPort via p.index .disable) s =
      .next (respond via 0x17 .done [] (disabledSending p k (.noAnswer order) s)) := by
  have left : leaveRing p s = endUnanswered order k (onPort p PortRec.toDisabled s) := by
    unfold leaveRing
    simp [slot, ordered, alone]
  have sent : offer (.noAnswer order) (onPort p PortRec.toDisabled s) =
      { onPort p PortRec.toDisabled s with overhead := enqueueLast (.noAnswer order) s.overhead } := by
    have room := offer_room (.noAnswer order) (onPort p PortRec.toDisabled s) (by rw [onPort_line]; exact service)
      (by rw [onPort_overhead]; exact free.room) (by rw [onPort_overhead]; exact free.line)
      (by rw [onPort_overhead]; exact free.signal)
    rw [room, onPort_overhead]
    rfl
  have still (r : PortRec) (quiet : r.state ≠ .ringing) : endRinging k r = r := if_neg fun c => quiet c.1
  have off : (s.port p).toDisabled.state ≠ .ringing := by simp [PortRec.toDisabled]
  rw [exec_disable_ringing d h, left, endUnanswered, sent]
  unfold endOrder markReleased onSlot onPorts onPort disabledSending
  cases p
  all_goals
    have own := still _ off
    have other := still _ alone
    dsimp only [State.port, otherPort, State.setPort] at own other ⊢
    rw [own, other]
    cases k <;> rfl

/-- The order of a port that rings with the other goes on with the other. -/
theorem exec_disable_both {order : Nat} (h : (s.port p).state = .ringing) (ordered : (s.port p).order = some order)
    (rings : (s.port (otherPort p)).state = .ringing) (same : (s.port (otherPort p)).slot = some k) :
    exec (.setPort via p.index .disable) s = .next (respond via 0x17 .done []
      ((s.setPort p (s.port p).toDisabled).setSlot k { s.slot k with party := .set (portSetOf (otherPort p)) })) := by
  rw [exec_disable_ringing d h]
  unfold leaveRing
  simp only [slot, ordered, rings, same, and_self, if_true, onSlot, onPort, State.setPort_slot]

end

/-! ## Enabling a port (R99, R100) -/

theorem PortRec.toIdle_loop (r : PortRec) : r.toIdle.loop = r.loop := rfl

section
variable {via : Via} {s : State} (d : Dispatchable via s) {p : Port}
include d

theorem exec_enable_other (h : (s.port p).state ≠ .disabled) :
    exec (.setPort via p.index .enable) s = .next (respond via 0x17 .done [] s) := by
  rw [exec_setPort_enable d, if_neg h]

theorem exec_enable_onHook (h : (s.port p).state = .disabled) (loop : (s.port p).loop = .onHook) :
    exec (.setPort via p.index .enable) s = .next (respond via 0x17 .done [] (s.setPort p (s.port p).toIdle)) := by
  rw [exec_setPort_enable d, if_pos h]
  simp [idleThenLoop, onPort, PortRec.offHook, PortRec.toIdle_loop, loop]

theorem exec_enable_offHook (h : (s.port p).state = .disabled) (loop : (s.port p).loop ≠ .onHook) :
    exec (.setPort via p.index .enable) s =
      .next (respond via 0x17 .done [] (offHookInIdle p (s.setPort p (s.port p).toIdle))) := by
  rw [exec_setPort_enable d, if_pos h]
  simp [idleThenLoop, onPort, PortRec.offHook, PortRec.toIdle_loop, loop]

/-! ## Routes and wake set (R148, R189) -/

theorem exec_setRoutes_home {flags : List Bool} (eight : flags.length = 8) (master : Bool) :
    exec (.setRoutes via .home flags master) s = .next (respond via 0x1C .done [] { s with notices := { s.notices with
      routes := (s.notices.routes.zip flags).map fun x => ⟨x.2, x.1.operator⟩, homeEnable := master
      queue := if master then s.notices.queue else
        (s.notices.queue.map fun e => { e with home := false, homeReturn := none }).filter fun e => e.home || e.overhead } }) := by
  rw [exec_request (c := .setRoutes via .home flags master) d (originAllowed_any rfl _) rfl]
  unfold serveSetRoutes
  rw [if_neg (by simp), if_pos eight]
  cases master <;> rfl

theorem exec_setRoutes_operator (op : via.ch = .operator) {flags : List Bool} (eight : flags.length = 8) (master : Bool) :
    exec (.setRoutes via .operator flags master) s = .next (respond via 0x1C .done [] { s with notices := { s.notices with
      routes := (s.notices.routes.zip flags).map fun x => ⟨x.1.home, x.2⟩, operatorEnable := master
      queue := if master then s.notices.queue else
        (s.notices.queue.map fun e => { e with overhead := false, overheadReturn := none }).filter
          fun e => e.home || e.overhead } }) := by
  rw [exec_request (c := .setRoutes via .operator flags master) d (originAllowed_any rfl _) rfl]
  unfold serveSetRoutes
  rw [if_neg (by simp [op]), if_pos eight]
  cases master <;> rfl

theorem exec_setWake (a b c e : Bool) :
    exec (.setWake via a b c e) s = .next (respond via 0x23 .done [] { s with supply.wakeSet := ⟨a, b, c, e⟩ }) :=
  exec_request (c := .setWake via a b c e) d (originAllowed_any rfl _) rfl

end

end Sys2Proof.Machine
end

section
namespace Sys2Proof.Machine

/-! ## SET_QUIET as a request (R76, R78) -/

section
variable {via : Via} {s : State} (d : Dispatchable via s) (width : Int)
include d

theorem exec_setQuiet_on : exec (.setQuiet via width true) s = .next (respond via 0x16 (resultOf (inBounds 1 4 width)) []
    { s with impulse := { s.impulse with
      quietEnable := true, width := fitTo 1 4 width, exchangeCancel := false
      due := s.impulse.due || (s.impulse.state == .locked && s.line.state == .service &&
        (!s.impulse.quietEnable || s.impulse.width != fitTo 1 4 width || s.impulse.exchangeCancel)) } }) := by
  rw [exec_setQuiet d, if_pos rfl, quietOn_eq]

theorem exec_setQuiet_off_idle
    (idle : s.impulse.quietEnable = false ∨ (s.impulse.state == .locked && s.line.state == .service) = false) :
    exec (.setQuiet via width false) s = .next (respond via 0x16 (resultOf (inBounds 1 4 width)) []
      (quietEnded (fitTo 1 4 width) s)) := by
  have quiet : ¬ (s.impulse.quietEnable = true ∧ (s.impulse.state == .locked && s.line.state == .service) = true) := by
    rcases idle with h | h <;> simp [h]
  rw [exec_setQuiet d, if_neg Bool.false_ne_true, quietOff_eq, if_neg quiet]

theorem exec_setQuiet_off_cancels (enabled : s.impulse.quietEnable = true)
    (inForce : (s.impulse.state == .locked && s.line.state == .service) = true) :
    exec (.setQuiet via width false) s = .next (respond via 0x16 (resultOf (inBounds 1 4 width)) []
      (cancelDown (quietEnded (fitTo 1 4 width) s))) := by
  rw [exec_setQuiet d, if_neg Bool.false_ne_true, quietOff_eq, if_pos ⟨enabled, inForce⟩]

end

end Sys2Proof.Machine

namespace Sys2Proof
open Machine

/-- Settles O58: each request's own equation, from the rule that answers a request. -/
theorem settingsAreWritten : Obligations.SettingsAreWritten := by
  unfold Obligations.SettingsAreWritten
  intro via s powered channel
  have d : Dispatchable via s := ⟨powered, channel⟩
  dsimp only
  refine ⟨fun op => ⟨exec_setMargins d op, fun low high => ⟨exec_stepMargin_up d op low high, exec_stepMargin_down d op low high⟩,
      exec_setHoldCeiling d op, exec_loadThresholds d op, exec_loadCadences d op, exec_setArchiveThreshold d op, ?_⟩,
    ?_, fun width => ⟨exec_setQuiet_on d width, exec_setQuiet_off_idle d width, ?_, ?_⟩,
    fun number action a b c e one two => ⟨exec_setPort_unknown d one two action, exec_setPortTiming_unknown d one two a b c e⟩,
    fun p => ⟨exec_disable_quiet d, exec_disable_disabled d, exec_disable_testing d, ?_, ?_, exec_enable_onHook d,
      exec_enable_offHook d, exec_enable_other d, exec_setPortTiming_known d p⟩,
    fun flags master eight => ⟨exec_setRoutes_home d eight master, fun op => exec_setRoutes_operator d op eight master⟩,
    exec_setWake d⟩
  case refine_1 =>
    intro test warn fail
    have set := exec_setTestLimits d op test warn fail
    cases test <;> exact set
  case refine_2 =>
    intro dir first last stride order top
    refine ⟨fun fn value => ?_, exec_writeTones_state d dir stride order top, exec_writeTones_refused d dir stride order top⟩
    have written := exec_writeTones_cap d dir stride order top fn value
    cases fn <;> exact written
  case refine_3 =>
    intro enabled inForce down out room line signal
    have service : s.line.state = .service := eq_of_beq (Bool.and_eq_true_iff.mp inForce).2
    rw [exec_setQuiet_off_cancels d width enabled inForce,
      cancelDown_inForce (s := quietEnded (fitTo 1 4 width) s) down out service ⟨room, line, signal⟩]
    rfl
  case refine_4 =>
    intro o enabled inForce out room line signal
    have service : s.line.state = .service := eq_of_beq (Bool.and_eq_true_iff.mp inForce).2
    rw [exec_setQuiet_off_cancels d width enabled inForce]
    refine ⟨fun queued => ?_, fun begun => ?_⟩
    · rw [cancelDown_unsent (s := quietEnded (fitTo 1 4 width) s) out queued service ⟨room, line, signal⟩]
      rfl
    · rw [cancelDown_begun (s := quietEnded (fitTo 1 4 width) s) out begun service ⟨room, line, signal⟩]
      unfold quietEnded
      dsimp only
      rw [out]
      rfl
  case refine_5 =>
    intro k service room line signal slot held
    have free : OverheadFree s := ⟨room, line, signal⟩
    exact ⟨fun state active => exec_disable_connected d slot state active held service free,
      fun state seizing => ⟨fun begun => exec_disable_seizing_begun d slot state seizing held begun service free,
        fun queued => exec_disable_seizing_unsent d slot state seizing held queued free⟩,
      fun order state ordered alone => exec_disable_alone d slot state ordered alone service free⟩
  case refine_6 =>
    intro k order state slot ordered rings same
    have both := exec_disable_both d slot state ordered rings same
    cases p <;> exact both

end Sys2Proof
end

section
namespace Sys2Proof.Machine

/-! ## The symbol counter that READ_IMPULSE meets (R79)

READ_IMPULSE names the next predicted position by its distance from the symbol counter modulo 2^32, and the model reduces the
counter first (`posSub`). The obligation writes that distance with the counter as it stands, and so in a state whose counter
lies above the position plus 2^32 its subtraction of naturals stays at 0. It asks for no `TimeLaw`, which keeps the counter of
every reachable state below 2^32. -/

/-- A LOCKED tracker with the position 2 predicted next, read while the symbol counter stands at 2^33. -/
def runawayCounter : State := { State.reset with
  time := { State.reset.time with symbolCounter := 8589934592 }
  impulse := { State.reset.impulse with state := .locked, reference := some 0, prediction := some 3 } }

/-- Byte 32 of the report is the last of the predicted symbol number. -/
theorem runawayCounter_report : (encodeFields 506 (impulseReport runawayCounter))[32]? = some 2#8 := rfl

/-- What stands before the list of a report stands at its head. -/
theorem HoldsList.getElem? {limit : Nat} {before after data : List Byte} {items : List (List Byte)}
    (h : HoldsList limit before items after data) {i : Nat} (inside : i < before.length) : data[i]? = before[i]? := by
  obtain ⟨k, -, rfl, -⟩ := h
  rw [List.append_assoc, List.append_assoc, List.getElem?_append_left inside]

end Sys2Proof.Machine

namespace Sys2Proof
open Machine

/-- Refutes O55: in `runawayCounter` the report of READ_IMPULSE names the next predicted position as symbol 2 of its cycle,
where the obligation asks for symbol 0. -/
theorem not_readsAreAnswered : ¬ Obligations.ReadsAreAnswered := by
  unfold Obligations.ReadsAreAnswered
  rintro ⟨-, -, reports⟩
  obtain ⟨-, -, -, -, -, -, -, -, -, impulse, -⟩ := reports runawayCounter 506
  have asked := impulse.getElem? (i := 32) (by decide)
  rw [runawayCounter_report] at asked
  exact absurd asked (by decide)

end Sys2Proof
end

section
namespace Sys2Proof.Machine

/-! ## Training messages (R44 to R51) -/

theorem byteOf_toNat {n : Nat} (h : n < 256) : (byteOf n).toNat = n := by
  rw [byteOf, BitVec.toNat_ofNat, Nat.mod_eq_of_lt h]

theorem ofBe16_be16 {n : Nat} (h : n < 65536) : ofBe16 (byteOf (n / 256)) (byteOf n) = n := by
  simp only [ofBe16, byteOf, BitVec.toNat_ofNat]
  omega

/-- A message of the right length is read when its kind is the expected one and its check agrees (R44). -/
theorem trainingContent_eq (expected kind : Byte) (content : List Byte) {check : List Byte} (two : check.length = 2)
    (small : content.length < 65536) :
    trainingContent expected ([kind] ++ be16 content.length ++ content ++ check) =
      if kind = expected ∧ checkBytes ([kind] ++ be16 content.length ++ content) = check then some content else none := by
  have body : ([kind] ++ be16 content.length ++ content).length = content.length + 3 := by
    simp [be16]
  have whole : ([kind] ++ be16 content.length ++ content ++ check).length - 2 =
      ([kind] ++ be16 content.length ++ content).length := by
    rw [List.length_append, two, Nat.add_sub_cancel]
  have long : 5 ≤ ([kind] ++ be16 content.length ++ content ++ check).length := by
    rw [List.length_append, two, body]
    omega
  have told : ofBe16 (([kind] ++ be16 content.length ++ content ++ check).getD 1 0#8)
      (([kind] ++ be16 content.length ++ content ++ check).getD 2 0#8) = content.length := ofBe16_be16 small
  have head : ([kind] ++ be16 content.length ++ content ++ check).head? = some kind := rfl
  have left : ([kind] ++ be16 content.length ++ content).drop 3 = content := rfl
  unfold trainingContent
  dsimp only
  rw [whole, List.take_left, List.drop_left, told, head, left, body]
  simp only [long, Option.some.injEq, Nat.add_sub_cancel, true_and]

theorem trainingContent_of_check (kind : Byte) (content : List Byte) (small : content.length < 65536) :
    trainingContent kind ([kind] ++ be16 content.length ++ content ++
      checkBytes ([kind] ++ be16 content.length ++ content)) = some content := by
  rw [trainingContent_eq kind kind content rfl small, if_pos ⟨rfl, rfl⟩]

theorem trainingContent_of_wrong (expected kind : Byte) (content : List Byte) {check : List Byte} (two : check.length = 2)
    (small : content.length < 65536) (wrong : check ≠ checkBytes ([kind] ++ be16 content.length ++ content)) :
    trainingContent expected ([kind] ++ be16 content.length ++ content ++ check) = none := by
  rw [trainingContent_eq expected kind content two small, if_neg fun h => wrong h.2.symm]

theorem ahead_eq (count : Nat) {now : Nat} (small : now < 256) : ahead count now = (count + 256 - now) % 256 := by
  unfold ahead
  omega

theorem swapAhead_iff (count : Nat) {now : Nat} (small : now < 256) :
    swapAhead count now = true ↔ 4 ≤ (count + 256 - now) % 256 ∧ (count + 256 - now) % 256 ≤ 64 := by
  simp [swapAhead, ahead_eq count small]

/-- Settles O23: the message due is the one the repeat sends. -/
theorem trainingMessagesRepeat : Obligations.TrainingMessagesRepeat := by
  unfold Obligations.TrainingMessagesRepeat
  intro s hs
  refine ⟨fun state due => ?_, fun state due => ?_, fun state due => ?_⟩
  · exact exec_of_due (c := .trainingRepeat .trainStart) hs rfl (by simp [repeatDue, state, due])
  · exact exec_of_due (c := .trainingRepeat .rxTable) hs rfl (by simp [repeatDue, state, due])
  · exact exec_of_due (c := .trainingRepeat .tablesReady) hs rfl (by simp [repeatDue, state, due])

section
variable {s : State} (hs : s.powered = true)
include hs

theorem exec_trainReply_unread {kind : Byte} {length content check : List Byte}
    (unread : trainingContent 0x02#8 ([kind] ++ length ++ content ++ check) = none) :
    exec (.trainReply kind length content check) s = .next s := by
  simp only [exec, execTrainReply, run_powered _ _ hs, unread]

theorem exec_txTable_unread {header content check : List Byte}
    (unread : trainingContent 0x04#8 (header ++ content ++ check) = none) :
    exec (.txTable header content check) s = .next s := by
  simp only [exec, execTxTable, run_powered _ _ hs, unread, Option.bind_none]

theorem exec_entry_unread {body check : List Byte} (unread : trainingContent 0x06#8 (body ++ check) = none) :
    exec (.entry body check) s = .next s := by
  simp only [exec, execEntry, run_powered _ _ hs, unread]

/-- The first TRAIN_REPLY of an attempt is taken in HANDSHAKE (R44, R45). -/
theorem exec_trainReply_read {length content check : List Byte} {credit count probe : Nat} (c1 : credit < 256)
    (c2 : count < 256) (c3 : probe < 256) (state : s.line.state = .handshake) (first : s.line.probeStart = none)
    (read : trainingContent 0x02#8 ([0x02#8] ++ length ++ content ++ check) =
      some [byteOf credit, byteOf count, byteOf probe]) :
    exec (.trainReply 0x02#8 length content check) s = .next (takeReply credit count probe s) := by
  simp only [exec, execTrainReply, run_powered _ _ hs, read, byteOf_toNat c1, byteOf_toNat c2, byteOf_toNat c3, state, first,
    beq_self_eq_true, Option.isNone_none, Bool.and_self, whenDue_true]

/-- An ENTRY in TABLES behind TABLES_READY is taken by its count (R49). -/
theorem exec_entry_read {body check : List Byte} {count : Nat} (small : count < 256) (state : s.line.state = .tables)
    (ready : s.line.readySent = true) (first : s.line.entryCount = none)
    (read : trainingContent 0x06#8 (body ++ check) = some [byteOf count]) :
    exec (.entry body check) s = .next (whenDue (swapAhead count s.time.cycleCount) (acceptEntry count) s) := by
  simp only [exec, execEntry, run_powered _ _ hs, read, byteOf_toNat small, state, ready, first, beq_self_eq_true,
    Option.isNone_none, Bool.and_self, Bool.true_and]

end

/-- Settles O24: what the check lets through is read, and the count decides on it. -/
theorem replyAndEntryAreTaken : Obligations.ReplyAndEntryAreTaken := by
  unfold Obligations.ReplyAndEntryAreTaken
  intro s hs
  dsimp only
  refine ⟨fun credit count probe state first c1 c2 c3 => ?_, fun count state ready first small cycle => ?_,
    fun kind content other two small wrong => ⟨?_, ?_, ?_⟩⟩
  · have taken := exec_trainReply_read hs c1 c2 c3 state first
      (trainingContent_of_check 0x02#8 [byteOf credit, byteOf count, byteOf probe] (by decide : 3 < 65536))
    refine taken.trans (congrArg _ ?_)
    unfold takeReply
    rw [Nat.mod_eq_of_lt c2, Nat.mod_eq_of_lt c3]
    exact if_congr (swapAhead_iff probe c2) rfl rfl
  · have taken := exec_entry_read hs small state ready first
      (trainingContent_of_check 0x06#8 [byteOf count] (by decide : 1 < 65536))
    refine taken.trans (congrArg _ ?_)
    unfold acceptEntry whenDue
    rw [Nat.mod_eq_of_lt small]
    exact if_congr (swapAhead_iff count cycle) rfl rfl
  · exact exec_trainReply_unread hs (trainingContent_of_wrong 0x02#8 kind content two small wrong)
  · exact exec_txTable_unread hs (trainingContent_of_wrong 0x04#8 kind content two small wrong)
  · exact exec_entry_unread hs (trainingContent_of_wrong 0x06#8 kind content two small wrong)

/-! ## Attempts: their timers and their ends (R45 to R51) -/

theorem backoffOf_eq {n : Nat} (counted : n ≠ 0) : backoffOf n =
    if n = 1 then 2 else if n = 2 then 4 else if n = 3 then 8 else if n = 4 then 16 else 30 := by
  have one : n ≤ 1 ↔ n = 1 := by omega
  exact if_congr one rfl rfl

/-- What a failed attempt leaves (R50). -/
theorem failAttempt_eq (why : TrainFail) (s : State) : ∃ a n, failAttempt why s = { endAttempt s with
    line := { (endAttempt s).line with
      state := .wait, attempts := satInc 255 s.line.attempts, backoff := backoffOf (satInc 255 s.line.attempts) }
    tester.autoPending := s.tester.autoPending || satInc 255 s.line.attempts == 3
    archive := a
    notices := n } := raise_frame _ _ _ _ _

/-- Settles O25: either timer's end is the failed attempt of R50. -/
theorem attemptTimersFail : Obligations.AttemptTimersFail := by
  unfold Obligations.AttemptTimersFail
  intro c s hs timer
  have failed : ∃ why, exec c s = .next (failAttempt why s) := by
    rcases timer with ⟨rfl, state, ended⟩ | ⟨rfl, state, ended⟩
    · exact ⟨_, exec_of_due (c := .handshakeTimerExpiry) hs rfl (by simp [state, ended])⟩
    · exact ⟨_, exec_of_due (c := .tablesTimerExpiry) hs rfl (by simp [state, ended])⟩
  obtain ⟨why, failed⟩ := failed
  refine ⟨_, failed, ?_⟩
  obtain ⟨a, x, e⟩ := failAttempt_eq why s
  rw [e]
  have counted : satInc 255 s.line.attempts ≠ 0 := by
    unfold satInc
    split <;> omega
  refine ⟨rfl, rfl, backoffOf_eq counted, fun third => ?_, rfl⟩
  have three : satInc 255 s.line.attempts = 3 := third
  simp [three]

/-- Settles O26: the entries to PROBE and to HANDSHAKE. -/
theorem probeAndHandshakeStart : Obligations.ProbeAndHandshakeStart := by
  unfold Obligations.ProbeAndHandshakeStart
  refine ⟨fun s hs state boundary start => ?_, fun s hs state ended => ⟨enterHandshake s, ?_, rfl, rfl, rfl, rfl, rfl⟩⟩
  · exact exec_of_due (c := .probeStart) hs rfl (by simp [state, atBoundary_of_zero boundary, start])
  · exact exec_of_due (c := .backoffExpiry) hs rfl (by simp [state, ended])

/-- Settles O27: a sample starts the training pass, and an attempt without one fails with no pass running. -/
theorem probeEnds : Obligations.ProbeEnds := by
  unfold Obligations.ProbeEnds
  intro s hs state boundary ended free
  refine ⟨leaveProbe s, exec_of_due (c := .probeEnd) hs rfl (by simp [state, atBoundary_of_zero boundary, ended]),
    fun sampled => ?_, fun unsampled => ?_⟩
  · have entered : leaveProbe s = _ := (if_pos sampled).trans (requestPass_free true _ free)
    rw [entered]
    exact ⟨rfl, rfl, ⟨_, rfl, rfl, rfl, rfl, rfl⟩, rfl⟩
  · obtain ⟨a, n, e⟩ := failAttempt_eq .lineTooWeak s
    have failed : leaveProbe s = failAttempt .lineTooWeak s := if_neg (by simp [unsampled])
    rw [failed, e]
    refine ⟨rfl, ?_⟩
    dsimp only [endAttempt]
    rw [free]
    rfl

end Sys2Proof.Machine
end

section
namespace Sys2Proof.Machine

/-! ## The TX table of an attempt (R44, R48) -/

theorem signedOf_signedByte {x : Int} (low : -128 ≤ x) (high : x ≤ 127) : signedOf (signedByte x) = x := by
  simp only [signedOf, signedByte, byteOf, BitVec.toInt_eq_toNat_cond, BitVec.toNat_ofNat]
  split <;> omega

/-- The pairs of a table are read back as they were written (R44). -/
theorem readMany_tonePairs (tones : List (Nat × Int)) (ranged : ∀ x ∈ tones, x.1 < 256 ∧ -128 ≤ x.2 ∧ x.2 ≤ 127) :
    readMany readTone tones.length (tonePairs tones) = some (tones, []) := by
  induction tones with
  | nil => rfl
  | cons x rest ih =>
    obtain ⟨⟨bits, low, high⟩, others⟩ := List.forall_mem_cons.mp ranged
    have read : readMany readTone (rest.length + 1) (tonePairs (x :: rest)) =
      (readMany readTone rest.length (tonePairs rest)).bind fun y =>
        some (((byteOf x.1).toNat, signedOf (signedByte x.2)) :: y.1, y.2) := rfl
    rw [List.length_cons, read, ih others, byteOf_toNat bits, signedOf_signedByte low high]
    rfl

theorem readToneTable_written {first : Nat} {tones : List (Nat × Int)} (low : first < 256) (short : tones.length < 256)
    (ranged : ∀ x ∈ tones, x.1 < 256 ∧ -128 ≤ x.2 ∧ x.2 ≤ 127) :
    readToneTable ([byteOf first, byteOf tones.length] ++ tonePairs tones) = some ((first, tones), []) := by
  have read : readToneTable ([byteOf first, byteOf tones.length] ++ tonePairs tones) =
    (readMany readTone (byteOf tones.length).toNat (tonePairs tones)).bind fun y =>
      some (((byteOf first).toNat, y.1), y.2) := rfl
  rw [read, byteOf_toNat low, byteOf_toNat short, readMany_tonePairs tones ranged]
  rfl

theorem tonePairs_length (tones : List (Nat × Int)) : (tonePairs tones).length = 2 * tones.length := by
  induction tones with
  | nil => rfl
  | cons x rest ih =>
    have pair : (tonePairs (x :: rest)).length = (tonePairs rest).length + 2 := rfl
    rw [pair, ih, List.length_cons]
    omega

theorem bitTotal_toBank (tones : List (Nat × Int)) : bitTotal (toBank tones) = (tones.map (·.1)).sum := by
  induction tones with
  | nil => rfl
  | cons x rest ih =>
    rw [List.map_cons, List.sum_cons, ← ih]
    exact bitTotal_cons _ _

theorem gainSum_toBank (tones : List (Nat × Int)) : gainSum (toBank tones) = (tones.map (·.2)).sum := by
  induction tones with
  | nil => rfl
  | cons x rest ih =>
    rw [List.map_cons, List.sum_cons, ← ih]
    exact gainSum_cons _ _

theorem legalBits_iff (b : Nat) : legalBits b = true ↔ b = 0 ∨ (2 ≤ b ∧ b ≤ 12) := by simp [legalBits]

theorem legalGain_iff (g : Int) : legalGain g = true ↔ -10 ≤ g ∧ g ≤ 10 := by simp [legalGain]

/-- The checks of R48 on the entries of a table and on the bank they make. -/
theorem txTableValid_iff (s : State) (first : Nat) (tones : List (Nat × Int)) : txTableValid s first tones = true ↔
    first ≤ 6 ∧ 32 ≤ first + tones.length ∧ (∀ x ∈ tones, x.1 = 0 ∨ (2 ≤ x.1 ∧ x.1 ≤ 12)) ∧
      bankBitsAllowed s.tones.txSet (ownEntries first tones) = true ∧ (∀ x ∈ tones, -10 ≤ x.2 ∧ x.2 ≤ 10) ∧
      ((ownEntries first tones).map (·.2)).sum ≤ 0 ∧ 24 ≤ ((ownEntries first tones).map (·.1)).sum := by
  simp only [txTableValid, Bool.and_eq_true, decide_eq_true_eq, List.all_eq_true, legalBits_iff, legalGain_iff,
    bitTotal_toBank, gainSum_toBank, and_assoc]

theorem exec_txTable_read {header content check : List Byte} {first : Nat} {tones : List (Nat × Int)} {s : State}
    (hs : s.powered = true) (state : s.line.state = .tables) (untaken : s.line.txTableTaken = false)
    (agrees : trainingContent 0x04#8 (header ++ content ++ check) = some content)
    (read : readToneTable content = some ((first, tones), [])) :
    exec (.txTable header content check) s = .next (takeTxTable first tones s) := by
  simp only [exec, execTxTable, run_powered _ _ hs, agrees, Option.bind_some, read, state, untaken, beq_self_eq_true,
    Bool.not_false, Bool.and_self, whenDue_true]

/-- TABLES_READY changes the framer's output and its own repeat and mark alone (R48). -/
theorem readyWhenBoth_frame (before : List Byte) (s : State) : ∃ f sent due, readyWhenBoth before s =
    { s with framer := f, line := { s.line with readySent := sent, readyRepeat := due } } := by
  unfold readyWhenBoth
  split
  · exact ⟨_, _, _, rfl⟩
  · exact ⟨_, _, _, rfl⟩

/-- Settles O28: the table is read back as it was sent, and judged by its checks. -/
theorem txTableIsChecked : Obligations.TxTableIsChecked := by
  unfold Obligations.TxTableIsChecked
  intro first tones s hs state untaken low short ranged
  dsimp only
  have small : ([byteOf first, byteOf tones.length] ++ tonePairs tones).length < 65536 := by
    rw [List.length_append, tonePairs_length]
    change 2 + _ < _
    omega
  refine ⟨_, exec_txTable_read hs state untaken (trainingContent_of_check 0x04#8 _ small)
    (readToneTable_written low short ranged), fun valid => ?_, fun invalid => ?_⟩
  · have taken : takeTxTable first tones s = _ := if_pos ((txTableValid_iff s first tones).mpr valid)
    rw [taken]
    obtain ⟨f, sent, due, e⟩ := readyWhenBoth_frame []
      { s with tones.txA := toBank (ownEntries first tones), line.txTableTaken := true }
    rw [e]
    exact ⟨state, rfl, rfl, rfl⟩
  · have failed : takeTxTable first tones s = failAttempt .txInvalid s :=
      if_neg fun h => invalid ((txTableValid_iff s first tones).mp h)
    obtain ⟨a, n, e⟩ := failAttempt_eq .txInvalid s
    rw [failed, e]
    exact ⟨rfl, rfl⟩

end Sys2Proof.Machine
end

section
namespace Sys2Proof.Machine

/-! ## The loss of SERVICE for signal quality (R52, R54, R55) -/

/-- Besides its line, its shifts and its overhead channel, a loss of SERVICE keeps the bit totals and the banks, and leaves time
and the data queues alone (R7, R55). -/
theorem leaveServiceTo_keeps (why : LossReason) (next : LineState) (s : State) :
    (leaveServiceTo why next s).framer.rx = s.framer.rx.stopped ∧
      (leaveServiceTo why next s).framer.tx = s.framer.tx.stopped ∧
      (leaveServiceTo why next s).tones = { s.tones with lineMargin := 0 } ∧
      (leaveServiceTo why next s).time = s.time ∧ (leaveServiceTo why next s).data = s.data ∧
      (leaveServiceTo why next s).tester = s.tester := by
  obtain ⟨p, a, n, o, g, e⟩ := beforeLoss_frame why s
  rw [leaveServiceTo_eq, e]
  exact ⟨rfl, rfl, rfl, rfl, rfl, rfl⟩

/-- Settles O30: each of the three triggers is the loss of SERVICE with its own reason. -/
theorem serviceIsLost : Obligations.ServiceIsLost := by
  unfold Obligations.ServiceIsLost
  intro c why s hs service full noHold trigger
  have lost : exec c s = .next (leaveServiceTo why .wait s) := by
    rw [← leaveService_full why .wait full noHold]
    rcases trigger with ⟨rfl, rfl, due⟩ | ⟨rfl, rfl, due⟩ | ⟨rfl, rfl, due⟩
    · exact exec_of_due (c := .noSignalTimeout) hs rfl (by simp [service, due])
    · exact exec_of_due (c := .retrainSecondsTrigger) hs rfl (by simp [service, due])
    · exact exec_of_due (c := .severeSecondsTrigger) hs rfl (by simp [service, due])
  obtain ⟨rx, tx, tones, time, data, -⟩ := leaveServiceTo_keeps why .wait s
  refine ⟨_, lost, ?_⟩
  dsimp only
  rw [leaveServiceTo_line, rx, tx, tones]
  exact ⟨rfl, rfl, rfl, rfl, rfl, rfl, rfl, rfl, leaveServiceTo_outOfService why .wait s, rfl, rfl, rfl, time, data⟩

/-! ## Shifts that fail, are agreed and are withdrawn (R58, R62) -/

theorem failShift_kept {s : State} (kind : s.shifts.rx.kind ≠ .supply) : failShift s = { s with
    shifts.rx := { s.shifts.rx with phase := .idle, holdOff := some ((s.time.uptime + 30) % 4294967296) } } := if_neg kind

theorem exec_rateOfferTimeout {s : State} (hs : s.powered = true) (service : s.line.state = .service)
    (offered : s.shifts.rx.phase = .offered) (ended : s.shifts.rx.offerWait = 0) :
    exec .rateOfferTimeout s = .next (offerTimesOut s) :=
  exec_of_due hs rfl (by simp [service, offered, ended])

/-- Settles O34: the three ways an offered shift fails. -/
theorem offerFails : Obligations.OfferFails := by
  unfold Obligations.OfferFails
  intro reason s hs service offered kind
  refine ⟨?_, fun ended queued => ?_, fun ended begun room line signal => ?_⟩
  · have declined : takeDecline reason s = failShift s := if_pos offered
    rw [exec_of_due (c := .rateDecline reason) hs rfl (by simp [service]), declined, failShift_kept kind]
  · have waits : unsent isRateOffer s = true := by
      obtain ⟨q, inside, hold, bank, is⟩ := queued
      have picked : s.overhead.queue.any (fun q => isRateOffer q.msg) = true :=
        List.any_eq_true.mpr ⟨q, inside, by rw [is]; rfl⟩
      simp [unsent, picked]
    rw [exec_rateOfferTimeout hs service offered ended, offerTimesOut, if_pos waits]
    exact congrArg _ (failShift_kept (s := withdraw isRateOffer s) kind)
  · have sent : ¬ unsent isRateOffer s = true := by
      rw [unsent_free _ ⟨room, line, signal⟩]
      simpa using begun
    rw [exec_rateOfferTimeout hs service offered ended, offerTimesOut, if_neg sent, offer_room _ _ service room line signal]
    exact congrArg _ (failShift_kept (s := { s with overhead := insertMsg .rateWithdraw s.overhead }) kind)

/-- Settles O35: an agreed RX shift is to be applied at the count carried, and a withdrawn TX shift is none. -/
theorem shiftIsAgreedOrWithdrawn : Obligations.ShiftIsAgreedOrWithdrawn := by
  unfold Obligations.ShiftIsAgreedOrWithdrawn
  intro count s hs service
  refine ⟨fun offered small cycle low high => ?_, exec_of_due (c := .rateWithdraw) hs rfl (by simp [service])⟩
  have near := (swapAhead_iff count cycle).mpr ⟨low, high⟩
  rw [exec_of_due (c := .rateAccept count) hs rfl (by simp [service])]
  unfold takeAccept
  rw [offered]
  dsimp only
  rw [if_pos near, Nat.mod_eq_of_lt small]

/-! ## The checks of a rate offer (R61) -/

/-- The eight checks of R61 as the offer's fault is their first failure. -/
def offerChecks (dir : Dir) (count first : Nat) (tones : List (Nat × Int)) (s : State) : List Bool := [
  dir == .tx,
  s.shifts.tx.isNone && s.shifts.txSwap.isNone,
  coversTx first tones,
  bankBitsAllowed s.tones.txSet tones,
  tones.all fun x => legalGain x.2,
  decide (gainSum (toBank tones) ≤ 0),
  decide (8 + 16 * s.slots.inUse ≤ bitTotal (toBank tones)),
  swapAhead count s.time.cycleCount]

theorem offerFault_eq (dir : Dir) (count first : Nat) (tones : List (Nat × Int)) (s : State) :
    offerFault dir count first tones s = firstFault 1 (offerChecks dir count first tones s) := by
  have negated (b : Bool) : (!b) = true ↔ b = false := by simp
  refine ite_fault (by simp) (ite_fault ?_ (ite_fault (negated _) (ite_fault (negated _) (ite_fault (negated _)
    (ite_fault (by simp) (ite_fault (by simp) (ite_fault (negated _) rfl)))))))
  cases s.shifts.tx <;> cases s.shifts.txSwap <;> simp

theorem range_all_getD {α : Type} (p : Nat → α → Bool) (d : α) (l : List α) (k : Nat) :
    ((List.range l.length).all fun i => p (k + i) (l.getD i d)) = (l.zipIdx k).all fun x => p x.2 x.1 := by
  induction l generalizing k with
  | nil => rfl
  | cons a rest ih =>
    rw [List.length_cons, List.range_succ_eq_map, List.all_cons, List.all_map, List.zipIdx_cons, List.all_cons, ← ih]
    simp [Function.comp_def, Nat.add_assoc, Nat.add_comm 1]

theorem bankBitsAllowed_eq (settings : List ToneSetting) (tones : List (Nat × Int)) : bankBitsAllowed settings tones =
    tones.zipIdx.all fun x => (x.1.1 == 0 || (2 ≤ x.1.1 && x.1.1 ≤ 12)) && x.1.1 ≤ (settings.getD x.2 ⟨12, .active⟩).cap &&
      ((settings.getD x.2 ⟨12, .active⟩).state == .active || x.1.1 == 0) := by
  have all := range_all_getD (fun i x => bitsAllowed settings (6 + i) x.1) (0, 0) tones 0
  have own (i : Nat) : settingAt .tx settings (6 + i) = settings.getD i ⟨12, .active⟩ := by
    rw [settingAt, firstTone, Nat.add_sub_cancel_left]
  simp only [bitsAllowed, own, Nat.zero_add] at all
  unfold bankBitsAllowed
  simp only [bitsAllowed, own]
  exact all

/-- The checks as the obligation writes them out. -/
theorem offerChecks_eq (dir : Dir) (count first : Nat) (tones : List (Nat × Int)) {s : State}
    (cycle : s.time.cycleCount < 256) : offerChecks dir count first tones s = [
      dir == .tx,
      s.shifts.tx.isNone && s.shifts.txSwap.isNone,
      first == 6 && tones.length == 26,
      tones.zipIdx.all fun x => (x.1.1 == 0 || (2 ≤ x.1.1 && x.1.1 ≤ 12)) &&
        x.1.1 ≤ (s.tones.txSet.getD x.2 ⟨12, .active⟩).cap &&
        ((s.tones.txSet.getD x.2 ⟨12, .active⟩).state == .active || x.1.1 == 0),
      tones.all fun x => -10 ≤ x.2 && x.2 ≤ 10,
      decide ((tones.map (·.2)).sum ≤ 0),
      decide (8 + 16 * s.slots.inUse ≤ (tones.map (·.1)).sum),
      4 ≤ (count + 256 - s.time.cycleCount) % 256 && (count + 256 - s.time.cycleCount) % 256 ≤ 64] := by
  unfold offerChecks swapAhead
  rw [bankBitsAllowed_eq, gainSum_toBank, bitTotal_toBank, ahead_eq count cycle]
  rfl

/-- An offer that passes every check is taken and accepted (R61). -/
theorem takeOffer_agreed {dir : Dir} {count first : Nat} {tones : List (Nat × Int)} {s : State} (hold : Bool)
    (agreed : offerFault dir count first tones s = 0) : takeOffer dir count hold first tones s =
      offer (.rateAccept (count % 256)) { s with
        tones := s.tones.setBank .tx (otherBank s.tones.txActive) (toBank tones)
        shifts.tx := some ⟨count % 256, hold, bitTotal (s.tones.active .tx)⟩ } := if_pos agreed

/-- A rate offer is answered by the first of the eight checks that fails, or agreed (R61). -/
theorem takeOffer_judged (dir : Dir) {count : Nat} (hold : Bool) (first : Nat) (tones : List (Nat × Int)) {s : State}
    (service : s.line.state = .service) (free : OverheadFree s) (small : count < 256) :
    takeOffer dir count hold first tones s =
      if (offerChecks dir count first tones s).findIdx (· == false) < 8 then
        raise .line .minor .orderRejected
          [(dir.code : Int), 0x11, ((offerChecks dir count first tones s).findIdx (· == false) : Int) + 1]
          { s with overhead :=
              enqueueLast (.rateDecline ((offerChecks dir count first tones s).findIdx (· == false) + 1)) s.overhead }
      else { s with
        tones := s.tones.setBank .tx (otherBank s.tones.txActive) (toBank tones)
        shifts.tx := some ⟨count, hold, bitTotal (s.tones.active .tx)⟩
        overhead := enqueueLast (.rateAccept count) s.overhead } := by
  have fault := offerFault_eq dir count first tones s
  have eight : (offerChecks dir count first tones s).length = 8 := rfl
  rw [firstFault_eq, eight] at fault
  split
  · rename_i fails
    rw [if_pos fails] at fault
    unfold takeOffer
    dsimp only
    rw [fault, if_neg (Nat.succ_ne_zero _), offer_room _ s service free.room free.line free.signal]
    rfl
  · rename_i passes
    rw [if_neg passes] at fault
    rw [takeOffer_agreed hold fault, Nat.mod_eq_of_lt small]
    exact offer_room _ _ service free.room free.line free.signal

/-- Settles O36: the offer's fault is the first of the checks that fails. -/
theorem rateOfferIsAccepted : Obligations.RateOfferIsAccepted := by
  unfold Obligations.RateOfferIsAccepted
  intro dir count hold first tones s hs service small cycle room line signal
  have judged := exec_of_due (c := .rateOffer dir count hold first tones) (f := takeOffer dir count hold first tones) hs rfl
    (by simp [service])
  rw [takeOffer_judged dir hold first tones service ⟨room, line, signal⟩ small, offerChecks_eq dir count first tones cycle]
    at judged
  exact judged

/-! ## Agreed shifts at their swap count (R59, R62) -/

theorem reportShift_reported (d : Dir) (oldB newB : Nat) (s : State) : Reported s (reportShift d oldB newB s) := by
  unfold reportShift
  refine Reported.trans ?_ (raise_reported _ _ _ _ _)
  split
  · exact count_reported _ _
  · split
    · exact count_reported _ _
    · exact .refl s

theorem exec_txShiftApplied {x : TxShift} {s : State} (hs : s.powered = true) (service : s.line.state = .service)
    (boundary : s.time.symbolNo = 0) (h : s.shifts.tx = some x) (due : x.swapCount = s.time.cycleCount) :
    exec .txShiftApplied s = .next (applyTxShift x s) := by
  simp [exec, execTxShiftApplied, hs, service, atBoundary_of_zero boundary, h, due]

/-- Settles O37: the banks change places, and what is counted and raised with it changes nothing else. -/
theorem shiftsAreApplied : Obligations.ShiftsAreApplied := by
  unfold Obligations.ShiftsAreApplied
  intro s hs service boundary
  refine ⟨fun agreed due => ⟨applyRxShift s, ?_, ?_⟩, fun x tx due => ⟨applyTxShift x s, ?_, ?_⟩⟩
  · exact exec_of_due (c := .rxShiftApplied) hs rfl (by simp [service, atBoundary_of_zero boundary, agreed, due])
  · unfold applyRxShift
    obtain ⟨p, a, n, e⟩ := reportShift_reported .rx s.shifts.rx.oldB (bitTotal (s.tones.standby .rx)) _
    dsimp only
    rw [e]
    exact ⟨rfl, rfl, rfl, rfl, rfl⟩
  · exact exec_txShiftApplied hs service boundary tx due
  · unfold applyTxShift
    obtain ⟨p, a, n, e⟩ := reportShift_reported .tx x.oldB (bitTotal (s.tones.standby .tx)) _
    dsimp only
    rw [e]
    exact ⟨rfl, rfl, rfl, rfl, rfl⟩

end Sys2Proof.Machine
end

section
namespace Sys2Proof.Machine

/-! ## Counters that an event does not count (R135) -/

theorem count_counters_other (c : Counter) (s : State) {i : Nat} (other : i ≠ c.index) :
    (count c s).perf.counters.getD i 0 = s.perf.counters.getD i 0 := by
  unfold count
  dsimp only
  split
  · split
    · rw [raise_perf]
      simp [List.getD_eq_getElem?_getD, List.getElem?_set_ne other.symm]
    · simp [List.getD_eq_getElem?_getD, List.getElem?_set_ne other.symm]
  · rfl

theorem count_counters_length (c : Counter) (s : State) : (count c s).perf.counters.length = s.perf.counters.length := by
  unfold count
  dsimp only
  split
  · split
    · rw [raise_perf]
      exact List.length_set
    · exact List.length_set
  · rfl

/-- The counters of `t` are those of `s`, but for the errored and severely errored seconds (R135). -/
def OnlySeconds (s t : State) : Prop :=
  t.perf.counters.length = s.perf.counters.length ∧ ∀ i, 2 ≤ i → t.perf.counters.getD i 0 = s.perf.counters.getD i 0

theorem OnlySeconds.trans {s t u : State} (h : OnlySeconds s t) (k : OnlySeconds t u) : OnlySeconds s u :=
  ⟨k.1.trans h.1, fun i two => (k.2 i two).trans (h.2 i two)⟩

theorem OnlySeconds.of_perf {s t : State} (h : t.perf.counters = s.perf.counters) : OnlySeconds s t :=
  ⟨by rw [h], fun i _ => by rw [h]⟩

theorem count_onlySeconds {c : Counter} (low : c.index < 2) (s : State) : OnlySeconds s (count c s) :=
  ⟨count_counters_length c s, fun i two => count_counters_other c s (by omega)⟩

theorem closeSecond_onlySeconds (s : State) : OnlySeconds s (closeSecond s) := by
  have es : Counter.es.index < 2 := by decide
  have ses : Counter.ses.index < 2 := by decide
  have emptied : OnlySeconds s (emptySecond s) := .of_perf rfl
  unfold closeSecond
  split
  · unfold classifySecond
    dsimp only
    split
    · split
      · exact (emptied.trans (count_onlySeconds es _)).trans (count_onlySeconds ses _)
      · exact emptied.trans (count_onlySeconds ses _)
    · split
      · exact emptied.trans (count_onlySeconds es _)
      · exact emptied
  · exact emptied

/-- The state in which RETRAINS is counted as the line leaves SERVICE (R54, R55). -/
def secondClosed (why : LossReason) (s : State) : State :=
  closeSecond (raise .line .major .serviceLost [(why.code : Int)] s)

theorem secondClosed_onlySeconds (why : LossReason) (s : State) : OnlySeconds s (secondClosed why s) :=
  (OnlySeconds.of_perf (by rw [raise_perf])).trans (closeSecond_onlySeconds _)

theorem leaveServiceTo_perf (why : LossReason) (next : LineState) (s : State) : (leaveServiceTo why next s).perf =
    (if why.countsRetrain then count .retrains (secondClosed why s) else secondClosed why s).perf := by
  rw [leaveServiceTo_eq]
  unfold beforeLoss
  obtain ⟨o, n, g, e⟩ := stopOverhead_frame (freeAllSlots
    (if why.countsRetrain then count .retrains (secondClosed why s) else secondClosed why s))
  have kept := congrArg State.perf e
  exact kept

/-- A loss that is no retrain counts the second it closes alone (R54). -/
theorem leaveServiceTo_onlySeconds {why : LossReason} (quiet : why.countsRetrain = false) (next : LineState) (s : State) :
    OnlySeconds s (leaveServiceTo why next s) := by
  have perf := leaveServiceTo_perf why next s
  rw [if_neg (by simp [quiet])] at perf
  exact (secondClosed_onlySeconds why s).trans (.of_perf (congrArg Perf.counters perf))

theorem leaveServiceTo_retrains {why : LossReason} (counts : why.countsRetrain = true) (next : LineState) {s : State}
    (small : s.perf.counters.getD 4 0 < 65535) (inside : 4 < s.perf.counters.length) :
    (leaveServiceTo why next s).perf.counters.getD 4 0 = s.perf.counters.getD 4 0 + 1 := by
  obtain ⟨length, others⟩ := secondClosed_onlySeconds why s
  have before := others 4 (by decide)
  rw [leaveServiceTo_perf, if_pos counts, ← before]
  exact count_counters .retrains _ (length ▸ inside) (before ▸ small)

/-! ## What a notice raised depends on (R141 to R148) -/

theorem raise_notices_congr (cls : NoticeClass) (sev : Severity) (code : NoticeCode) (ps : List Int) {s t : State}
    (time : t.time = s.time) (notices : t.notices = s.notices) (overhead : t.overhead = s.overhead) (data : t.data = s.data) :
    (raise cls sev code ps t).notices = (raise cls sev code ps s).notices := by
  obtain ⟨a, ha⟩ := copyToArchive_frame cls sev code ps s
  obtain ⟨b, hb⟩ := copyToArchive_frame cls sev code ps t
  unfold raise
  rw [ha, hb]
  dsimp only
  rw [notices]
  split
  · unfold placeNotice State.heldSequences
    dsimp only
    rw [time, overhead, data]
    split <;> rfl
  · rfl

/-! ## An attempt or a line test given up (R43, R47, R175) -/

theorem endAttempt_pass (s : State) {p : Pass} (h : (endAttempt s).loader.running = some p) : p.training = false := by
  have kept : s.loader.running.filter (fun p => !p.training) = some p := h
  simpa using (Option.filter_eq_some_iff.mp kept).2

theorem lineToOff_off (why : LossReason) {s : State} (h : s.line.state = .off) : lineToOff why s = s := by
  unfold lineToOff
  rw [h]

/-- Outside SERVICE and OFF the attempt and a line test end, and the line is OFF (R43). -/
theorem lineToOff_other (why : LossReason) {s : State} (service : s.line.state ≠ .service) (off : s.line.state ≠ .off) :
    lineToOff why s = { abortLineTest (endAttempt s) with
      line := { (abortLineTest (endAttempt s)).line with state := .off } } := by
  unfold lineToOff
  split
  · contradiction
  · contradiction
  · rfl

theorem abortLineTest_none {s : State} (h : ∀ c, s.tester.claim = some c → lineTest c.test = false) :
    abortLineTest s = s := by
  unfold abortLineTest
  split
  · rename_i c claim
    exact if_neg (by simp [h c claim])
  · rfl

theorem abortLineTest_line {s : State} {c : Claim} (claim : s.tester.claim = some c) (line : lineTest c.test = true) :
    abortLineTest s = abortClaim c s := by
  unfold abortLineTest
  rw [claim]
  exact if_pos line

/-- The abort of a test writes its result, frees the claim and raises TEST_RESULT (R175). -/
theorem abortClaim_eq (c : Claim) (s : State) : ∃ a, abortClaim c s = { s with
    tester := { s.tester with
      claim := none
      results := s.tester.results.set c.test.index ⟨.aborted, 0, c.port, some c.origin, s.time.uptime⟩ }
    archive := a
    notices := (raise .test .info .testResult
      [Config.testTarget c.test.index (portNumber c.port), 0, (Verdict.aborted.code : Int)] s).notices } := by
  have told := raise_notices_congr .test .info .testResult
    [Config.testTarget c.test.index (portNumber c.port), 0, (Verdict.aborted.code : Int)]
    (s := s) (t := { writeResult c .aborted 0 s with tester.claim := none }) rfl rfl rfl rfl
  obtain ⟨a, n, e⟩ := raise_frame .test .info .testResult
    [Config.testTarget c.test.index (portNumber c.port), 0, (Verdict.aborted.code : Int)]
    { writeResult c .aborted 0 s with tester.claim := none }
  have aborted : abortClaim c s = raise .test .info .testResult
    [Config.testTarget c.test.index (portNumber c.port), 0, (Verdict.aborted.code : Int)]
    { writeResult c .aborted 0 s with tester.claim := none } := rfl
  rw [e] at told
  exact ⟨a, by rw [aborted, e, ← told]; rfl⟩

end Sys2Proof.Machine
end

section
namespace Sys2Proof.Machine

/-! ## LINE_CONTROL (R43, R54, R63) -/

section
variable {via : Via} {s : State} (d : Dispatchable via s)
include d

theorem exec_lineControl (action : LineAction) :
    exec (.lineControl via action) s = .next (conclude via 0x11 (serveLineControl action s)) :=
  exec_request (c := .lineControl via action) d (originAllowed_any rfl _) rfl

theorem exec_lineEnable_stays (h : s.line.state ≠ .off ∨ s.supply.state = .dormant) :
    exec (.lineControl via .enable) s = .next (respond via 0x11 .done [] { s with line.enabled := true }) := by
  have stays : enableLine s = { s with line.enabled := true } := if_neg fun c => h.elim (· c.1) c.2
  rw [← stays]
  exact exec_lineControl d .enable

theorem exec_lineEnable_off (off : s.line.state = .off) (awake : s.supply.state ≠ .dormant) :
    exec (.lineControl via .enable) s =
      .next (respond via 0x11 .done [] (leaveOff { s with line.enabled := true })) := by
  have leaves : enableLine s = leaveOff { s with line.enabled := true } := if_pos ⟨off, awake⟩
  rw [← leaves]
  exact exec_lineControl d .enable

theorem exec_lineDisable_off (off : s.line.state = .off) :
    exec (.lineControl via .disable) s = .next (respond via 0x11 .done [] { s with line.enabled := false }) := by
  have stays : disableLine s = { s with line.enabled := false } :=
    (if_neg (by simp [off])).trans (lineToOff_off .disabled (s := { s with line.enabled := false }) off)
  rw [← stays]
  exact exec_lineControl d .disable

theorem exec_lineDisable_service (service : s.line.state = .service) (full : s.supply.state = .full)
    (noHold : s.supply.powerLossHold = none) : exec (.lineControl via .disable) s =
      .next (respond via 0x11 .done [] (leaveServiceTo .disabled .off { s with line.enabled := false })) := by
  have leaves : disableLine s = leaveServiceTo .disabled .off { s with line.enabled := false } :=
    (if_pos service).trans (leaveService_full .disabled .off (s := { s with line.enabled := false }) full noHold)
  rw [← leaves]
  exact exec_lineControl d .disable

/-- DISABLE outside SERVICE and OFF gives up the attempt and a line test (R43). -/
theorem exec_lineDisable_other (service : s.line.state ≠ .service) (off : s.line.state ≠ .off) {u : State}
    (aborted : abortLineTest (endAttempt { s with line.enabled := false }) = u) :
    exec (.lineControl via .disable) s =
      .next (respond via 0x11 .done [] { u with line := { u.line with state := .off } }) := by
  have leaves : disableLine s = { u with line := { u.line with state := .off } } := by
    subst aborted
    exact (if_neg service).trans (lineToOff_other .disabled (s := { s with line.enabled := false }) service off)
  rw [← leaves]
  exact exec_lineControl d .disable

theorem exec_retrain_service (service : s.line.state = .service) (full : s.supply.state = .full)
    (noHold : s.supply.powerLossHold = none) : exec (.lineControl via .retrainNow) s =
      .next (respond via 0x11 .done [] (leaveServiceTo .requested .wait s)) := by
  rw [exec_lineControl d, serveLineControl, service, ← leaveService_full .requested .wait full noHold]
  rfl

theorem exec_retrain_wait (wait : s.line.state = .wait) : exec (.lineControl via .retrainNow) s =
    .next (respond via 0x11 .done [] (enterHandshake { s with line.backoff := 0 })) := by
  rw [exec_lineControl d, serveLineControl, wait]
  rfl

theorem exec_retrain_attempt (attempt : s.line.state = .handshake ∨ s.line.state = .probe ∨ s.line.state = .tables) :
    exec (.lineControl via .retrainNow) s = .next (respond via 0x11 .done [] (enterHandshake s)) := by
  rw [exec_lineControl d, serveLineControl]
  rcases attempt with h | h | h
  all_goals
    rw [h]
    rfl

theorem exec_retrain_refused (still : s.line.state = .off ∨ s.line.state = .test) :
    exec (.lineControl via .retrainNow) s = .next (respond via 0x11 .refusedState [] s) := by
  rw [exec_lineControl d, serveLineControl]
  rcases still with h | h
  all_goals
    rw [h]
    rfl

end

/-! ## RUN_TEST (R171 to R173) -/

theorem TestType.ofIndex_index (k : TestType) : TestType.ofIndex k.index = some k := by cases k <;> rfl

theorem TestType.ofIndex_none {n : Nat} (h : 5 ≤ n) : TestType.ofIndex n = none := by
  match n with
  | n + 5 => rfl

theorem lineTest_iff (k : TestType) :
    lineTest k = true ↔ k = .lineVoltage ∨ k = .lineInsulation ∨ k = .lineLoop := by
  cases k <;> simp [lineTest]

theorem lineRefuses_of {force : Bool} {s : State} (h : s.line.state = .probe ∨ s.line.state = .tables ∨
    s.line.state = .test ∨ (s.line.state = .service ∧ (force = false ∨ s.slots.allFree = false))) :
    lineRefuses force s = true := by
  unfold lineRefuses
  rcases h with h | h | h | ⟨h, rfl | free⟩
  · rw [h]
  · rw [h]
  · rw [h]
  · rw [h]
    rfl
  · rw [h, free]
    simp

theorem lineRefuses_not {force : Bool} {s : State} (h : s.line.state = .off ∨ s.line.state = .wait ∨
    s.line.state = .handshake ∨ (s.line.state = .service ∧ force = true ∧ s.slots.allFree = true)) :
    lineRefuses force s = false := by
  unfold lineRefuses
  rcases h with h | h | h | ⟨h, rfl, free⟩
  · rw [h]
  · rw [h]
  · rw [h]
  · rw [h, free]
    rfl

/-- The claim a request's test fills (R170, R172). -/
def claimed (k : TestType) (p : Option Port) (o : Origin) (force : Bool) (s : State) : State :=
  { s with tester.claim := some ⟨k, p, o, force && lineTest k && s.line.state == .service,
    if lineTest k then some s.line.state else none, testDuration k, false⟩ }

section
variable {via : Via} {s : State} (d : Dispatchable via s)
include d

theorem exec_runTest (test : Nat) (port : Int) (force : Bool) : exec (.runTest via test port force) s =
    .next (conclude via 0x21 (serveRunTest via.ch test port force s)) :=
  exec_request (c := .runTest via test port force) d (originAllowed_any rfl _) rfl

theorem exec_runTest_unknown {test : Nat} (beyond : 5 ≤ test) (port : Int) (force : Bool) :
    exec (.runTest via test port force) s = .next (respond via 0x21 .badParameter [] s) := by
  rw [exec_runTest d, serveRunTest, TestType.ofIndex_none beyond]
  rfl

/-- A line test is judged by the claim, the supply and the line, in this order (R171). -/
theorem exec_runTest_line {k : TestType} (line : lineTest k = true) (port : Int) (force : Bool) :
    exec (.runTest via k.index port force) s = .next (conclude via 0x21
      (if s.tester.claim.isSome then answered .busy s
      else if s.supply.state ≠ .full then answered .refusedState s
      else if lineRefuses force s then answered .refusedState s
      else answered .accepted (takeLine (claimed k none (Channel.origin via.ch) force s)))) := by
  rw [exec_runTest d, serveRunTest, TestType.ofIndex_index]
  simp only [line, if_true]
  rfl

/-- A port test is judged by the claim, the supply and its port, in this order (R171). -/
theorem exec_runTest_port {k : TestType} (phone : lineTest k = false) {port : Int} {p : Port} (named : portOf port = some p)
    (force : Bool) : exec (.runTest via k.index port force) s = .next (conclude via 0x21
      (if s.tester.claim.isSome then answered .busy s
      else if s.supply.state ≠ .full then answered .refusedState s
      else if (s.port p).state ≠ .idle then answered .refusedState s
      else answered .accepted (onPort p PortRec.toTesting (claimed k (some p) (Channel.origin via.ch) false s)))) := by
  rw [exec_runTest d, serveRunTest, TestType.ofIndex_index]
  simp only [phone, named]
  rfl

theorem exec_runTest_nowhere {k : TestType} (phone : lineTest k = false) {port : Int} (one : port ≠ 1) (two : port ≠ 2)
    (force : Bool) : exec (.runTest via k.index port force) s = .next (respond via 0x21 .badParameter [] s) := by
  rw [exec_runTest d, serveRunTest, TestType.ofIndex_index]
  simp only [phone, portOf_none one two]
  rfl

/-- A test that names its target is judged by the claim first, then by the supply (R171). -/
theorem exec_runTest_judged {k : TestType} {port : Int} (target : lineTest k = true ∨ port = 1 ∨ port = 2) (force : Bool) :
    ∃ x : Served, exec (.runTest via k.index port force) s = .next (conclude via 0x21
      (if s.tester.claim.isSome then answered .busy s
      else if s.supply.state ≠ .full then answered .refusedState s else x)) := by
  cases line : lineTest k
  · have named : ∃ p, portOf port = some p := by
      rcases target with h | rfl | rfl
      · exact absurd (line.symm.trans h) (by decide)
      · exact ⟨.p1, rfl⟩
      · exact ⟨.p2, rfl⟩
    obtain ⟨p, named⟩ := named
    exact ⟨_, exec_runTest_port d line named force⟩
  · exact ⟨_, exec_runTest_line d line port force⟩

theorem exec_runTest_busy {k : TestType} {port : Int} (target : lineTest k = true ∨ port = 1 ∨ port = 2) (force : Bool)
    (claim : s.tester.claim.isSome = true) :
    exec (.runTest via k.index port force) s = .next (respond via 0x21 .busy [] s) := by
  obtain ⟨x, judged⟩ := exec_runTest_judged d target force
  rw [judged, if_pos claim]
  rfl

theorem exec_runTest_unsupplied {k : TestType} {port : Int} (target : lineTest k = true ∨ port = 1 ∨ port = 2) (force : Bool)
    (free : s.tester.claim = none) (supply : s.supply.state ≠ .full) :
    exec (.runTest via k.index port force) s = .next (respond via 0x21 .refusedState [] s) := by
  obtain ⟨x, judged⟩ := exec_runTest_judged d target force
  rw [judged, if_neg (by simp [free]), if_pos supply]
  rfl

section
variable {k : TestType} (free : s.tester.claim = none) (full : s.supply.state = .full)
include free full

theorem exec_runTest_lineRefused (line : lineTest k = true) (port : Int) {force : Bool}
    (refuses : lineRefuses force s = true) :
    exec (.runTest via k.index port force) s = .next (respond via 0x21 .refusedState [] s) := by
  rw [exec_runTest_line d line, if_neg (by simp [free]), if_neg (by simp [full]), if_pos refuses]
  rfl

theorem exec_runTest_lineTaken (line : lineTest k = true) (port : Int) {force : Bool}
    (takes : lineRefuses force s = false) : exec (.runTest via k.index port force) s =
      .next (respond via 0x21 .accepted [] (takeLine (claimed k none (Channel.origin via.ch) force s))) := by
  rw [exec_runTest_line d line, if_neg (by simp [free]), if_neg (by simp [full]), if_neg (by simp [takes])]
  rfl

theorem exec_runTest_ofPort (phone : lineTest k = false) (p : Port) (force : Bool) :
    exec (.runTest via k.index p.index force) s = .next (respond via 0x21
      (if (s.port p).state = .idle then .accepted else .refusedState) []
      (if (s.port p).state = .idle then onPort p PortRec.toTesting (claimed k (some p) (Channel.origin via.ch) false s)
      else s)) := by
  rw [exec_runTest_port d phone (portOf_index p), if_neg (by simp [free]), if_neg (by simp [full])]
  by_cases idle : (s.port p).state = .idle
  · rw [if_neg (by simp [idle]), if_pos idle, if_pos idle]
    rfl
  · rw [if_pos idle, if_neg idle, if_neg idle]
    rfl

end

end

end Sys2Proof.Machine
end

section
namespace Sys2Proof.Machine

/-! ## The archive's status (R158, R162, R164) -/

/-- No failure of the archive is marked, and its sequencer is not in ERROR (R158, R162). -/
structure Archive.Sound (a : Archive) : Prop where
  programs : a.programFailed = false
  erases : a.eraseFailed = false
  state : a.state ≠ .error

theorem foldl_miss_sound (l : List ArchCopy) {a : Archive} (h : a.Sound) : (l.foldl (fun x _ => x.miss) a).Sound := by
  induction l generalizing a with
  | nil => exact h
  | cons c rest ih => exact ih ⟨h.programs, h.erases, h.state⟩

theorem Archive.begin_sound {a : Archive} (h : a.Sound) (c : ArchCopy) (b k : Nat) : (a.begin c b k).Sound := by
  have runs : a.programState ≠ .error := by
    unfold Archive.programState
    split <;> decide
  unfold Archive.begin
  dsimp only
  split
  · exact foldl_miss_sound _ ⟨h.programs, h.erases, runs⟩
  · exact ⟨h.programs, h.erases, runs⟩

theorem Archive.serve_sound {a : Archive} (h : a.Sound) : a.serve.Sound := by
  rcases a.serve_cases with e | ⟨before, c, after, b, k, -, -, e, -⟩
  · rw [e]
    exact h
  · rw [e]
    exact Archive.begin_sound (a := { a with pendingList := before ++ after }) ⟨h.programs, h.erases, h.state⟩ c b k

theorem Archive.beginErase_sound {a : Archive} (h : a.Sound) (b : Nat) (o : Origin) : (a.beginErase b o).Sound := by
  unfold Archive.beginErase
  exact Archive.serve_sound ⟨h.programs, h.erases, by simp⟩

theorem Archive.makeCurrent_sound {a : Archive} (h : a.Sound) (i : Nat) : (a.makeCurrent i).Sound :=
  Archive.serve_sound ⟨h.programs, h.erases, h.state⟩

theorem Archive.missMinor_sound {a : Archive} (h : a.Sound) : a.missMinor.Sound :=
  foldl_miss_sound _ ⟨h.programs, h.erases, h.state⟩

theorem Archive.arrive_sound {a : Archive} (h : a.Sound) (c : ArchCopy) : (a.arrive c).Sound := by
  unfold Archive.arrive
  dsimp only
  split
  · exact ⟨h.programs, h.erases, h.state⟩
  · split
    · exact ⟨h.programs, h.erases, h.state⟩
    · split
      · exact Archive.serve_sound ⟨h.programs, h.erases, h.state⟩
      · split
        · exact Archive.serve_sound ⟨h.programs, h.erases, h.state⟩
        · exact ⟨h.programs, h.erases, h.state⟩

theorem raise_archive (cls : NoticeClass) (sev : Severity) (code : NoticeCode) (ps : List Int) (s : State) :
    (raise cls sev code ps s).archive = (copyToArchive cls sev code ps s).archive := by
  unfold raise
  dsimp only
  split
  · obtain ⟨n, e⟩ := placeNotice_frame cls sev code ps _ _ (copyToArchive cls sev code ps s)
    rw [e]
  · rfl

theorem raise_sound (cls : NoticeClass) (sev : Severity) (code : NoticeCode) (ps : List Int) {s : State}
    (h : s.archive.Sound) : (raise cls sev code ps s).archive.Sound := by
  rw [raise_archive]
  unfold copyToArchive
  split
  · exact Archive.arrive_sound h _
  · exact h

/-- The rotation step marks no failure (R159). -/
theorem rotate_sound {s : State} (h : s.archive.Sound) : (rotate s).archive.Sound := by
  unfold rotate
  dsimp only
  split
  · exact h
  · split
    · exact h
    · split
      · split
        · exact h
        · exact Archive.makeCurrent_sound h _
      · split
        · split
          · exact Archive.beginErase_sound h _ _
          · exact h
        · have missed := Archive.missMinor_sound h
          split
          · exact ⟨missed.programs, missed.erases, missed.state⟩
          · exact raise_sound _ _ _ _ ⟨missed.programs, missed.erases, missed.state⟩

theorem archiveReady_sound {s : State} (h : s.archive.Sound) : (archiveReady s).archive.Sound :=
  rotate_sound (s := { s with archive := s.archive.serve }) (Archive.serve_sound h)

theorem clearStatus_sound {s : State} (error : s.archive.state = .error) : (clearStatus s).archive.Sound := by
  unfold clearStatus
  rw [if_pos error]
  refine archiveReady_sound ?_
  exact ⟨rfl, rfl, by simp⟩

theorem respond_archive (via : Via) (kind : Nat) (r : Result) (data : List Byte) (s : State) :
    (respond via kind r data s).archive = s.archive := by
  obtain ⟨f, o, g, e⟩ := addResponse_frame via.ch (responseOf via kind r data) s
  have kept := congrArg State.archive e
  exact kept

theorem Archive.serve_empty {a : Archive} (h : a.pendingList = []) : a.serve = a := by
  rcases a.serve_cases with e | ⟨before, c, after, b, k, filled, -⟩
  · exact e
  · rw [h] at filled
    exact absurd filled (by simp)

/-- With no record waiting, an erase only clears its block (R160). -/
theorem Archive.beginErase_empty {a : Archive} (h : a.pendingList = []) {b : Nat} (inside : b < a.table.length) (o : Origin) :
    (a.beginErase b o).erase = some ⟨b, o, 800⟩ ∧ (a.beginErase b o).state = .erasing ∧
      ((a.beginErase b o).entry b).nextOrdinary = 0 ∧ ((a.beginErase b o).entry b).nextReserved = 126 := by
  unfold Archive.beginErase
  rw [Archive.serve_empty]
  · refine ⟨rfl, rfl, ?_, ?_⟩
    all_goals
      simp [Archive.entry, Archive.setBlock, Archive.setEntry, List.getD_eq_getElem?_getD, inside]
  · exact h

theorem rotate_current {s : State} {i : Nat} (h : s.archive.current = some i) : rotate s = s := if_pos (by simp [h])

section
variable {via : Via} {s : State} (d : Dispatchable via s)
include d

/-! ## Requests to the archive, the Management Unit and the Factory Store (R162, R164, R165, R194, R196) -/

theorem exec_clearArchiveStatus :
    exec (.clearArchiveStatus via) s = .next (respond via 0x20 .done [] (clearStatus s)) :=
  exec_request (c := .clearArchiveStatus via) d (originAllowed_any rfl _) rfl

theorem exec_restart (first : s.mgmt.restart = none) :
    exec (.restart via) s = .next (respond via 0x24 .done [] { s with mgmt.restart := some ⟨via.ch, 100, 1⟩ }) := by
  rw [exec_request (c := .restart via) d (originAllowed_any rfl _) rfl, serveRestart, first]
  rfl

section
variable (op : via.ch = .operator)
include op

theorem exec_eraseArchiveBlock {b : Nat} (known : b ≤ 3) (awake : s.supply.state ≠ .dormant) (ready : s.archive.state = .ready)
    (numbers : s.archive.blockSequence < 4294967295) (block : (s.archive.entry b).state ≠ .current) :
    exec (.eraseArchiveBlock via b) s =
      .next (respond via 0x1E .accepted [] { s with archive := s.archive.beginErase b .operator }) := by
  have left : s.archive.blockSequence ≠ sequenceTop := by
    unfold sequenceTop
    omega
  have serves : serveEraseArchiveBlock b s = answered .accepted { s with archive := s.archive.beginErase b .operator } := by
    unfold serveEraseArchiveBlock
    rw [if_neg (by omega), if_neg awake, if_neg (by simp [ready]), if_neg left, if_neg (not_not.mpr ready)]
    exact if_neg block
  rw [exec_request (c := .eraseArchiveBlock via b) d (originAllowed_operator _ op) rfl, serves]
  rfl

theorem exec_setArchiveMode_keep {i : Nat} (current : s.archive.current = some i) : exec (.setArchiveMode via 1) s =
    .next (respond via 0x1F .done [] { s with archive := { s.archive with mode := .keep, fullReported := false } }) := by
  have serves : serveSetArchiveMode 1 s =
      answered .done { s with archive := { s.archive with mode := .keep, fullReported := false } } :=
    congrArg (answered .done) (rotate_current (i := i) current)
  rw [exec_request (c := .setArchiveMode via 1) d (originAllowed_operator _ op) rfl, serves]
  rfl

theorem exec_factoryOpen :
    exec (.factoryOpen via) s = .next (respond via 0x25 .done [] { s with factory.isOpen := true }) :=
  exec_request (c := .factoryOpen via) d (originAllowed_operator _ op) rfl

theorem exec_factoryClose :
    exec (.factoryClose via) s = .next (respond via 0x26 .done [] { s with factory.isOpen := false }) :=
  exec_request (c := .factoryClose via) d (originAllowed_operator _ op) rfl

theorem exec_factoryProgram_holdCeiling {tone : Nat} (low : 48 ≤ tone) (high : tone ≤ 255) (opened : s.factory.isOpen = true)
    (idle : s.factory.programming = none) (blank : s.factory.items[5]? = some .blank) :
    exec (.factoryProgram via (.holdCeiling tone)) s =
      .next { s with factory.programming := some ⟨5, .holdCeiling tone, via, 20⟩ } := by
  have item : checkedItem (.holdCeiling tone) = some (.holdCeiling tone) := by
    simp [checkedItem, inside]
    omega
  rw [exec_request (c := .factoryProgram via (.holdCeiling tone)) d (originAllowed_operator _ op) rfl]
  simp only [serveFactoryProgram, itemIndex, itemBlank, opened, idle, blank, item]
  rfl

end

end

end Sys2Proof.Machine
end

section
namespace Sys2Proof.Machine

/-! ## The line and the port a test takes (R170, R172, R173) -/

/-- The claim of a line test that RUN_TEST starts (R170, R172). -/
def lineClaim (k : TestType) (o : Origin) (forced : Bool) (s : State) : Claim :=
  ⟨k, none, o, forced, some s.line.state, testDuration k, false⟩

section
variable {k : TestType} (o : Origin) {s : State} (line : lineTest k = true)
include line

/-- A line test counts as forced only where it takes the line from SERVICE (R172). -/
theorem claimed_unforced (force : Bool) (h : s.line.state ≠ .service) : claimed k none o force s =
    { s with tester.claim := some (lineClaim k o false s) } := by
  have unforced : (s.line.state == .service) = false := beq_false_of_ne h
  simp only [claimed, lineClaim, line, unforced, Bool.and_false, if_true]

theorem claimed_forced (service : s.line.state = .service) : claimed k none o true s =
    { s with tester.claim := some (lineClaim k o true s) } := by
  simp only [claimed, lineClaim, line, service, beq_self_eq_true, Bool.and_self, if_true]

theorem takeLine_still (force : Bool) (still : s.line.state = .off ∨ s.line.state = .wait) :
    takeLine (claimed k none o force s) =
      { s with tester.claim := some (lineClaim k o false s), line.state := .test } := by
  rw [claimed_unforced o line force (by rcases still with h | h <;> simp [h])]
  unfold takeLine
  rcases still with h | h
  all_goals simp only [h]

theorem takeLine_handshake (force : Bool) (h : s.line.state = .handshake) : takeLine (claimed k none o force s) =
    { endAttempt { s with tester.claim := some (lineClaim k o false s) } with
      line := { (endAttempt s).line with state := .test } } := by
  rw [claimed_unforced o line force (by simp [h])]
  unfold takeLine
  simp only [h]
  rfl

theorem takeLine_service (service : s.line.state = .service) (full : s.supply.state = .full)
    (noHold : s.supply.powerLossHold = none) : takeLine (claimed k none o true s) =
      leaveServiceTo .test .test { s with tester.claim := some (lineClaim k o true s) } := by
  rw [claimed_forced o line service, ← leaveService_full .test .test (s := { s with tester.claim := some (lineClaim k o true s) })
    full noHold]
  unfold takeLine
  simp only [service]

end

theorem onPort_toTesting {k : TestType} (phone : lineTest k = false) (p : Port) (o : Origin) (s : State) :
    onPort p PortRec.toTesting (claimed k (some p) o false s) =
      ({ s with tester.claim := some ⟨k, some p, o, false, none, testDuration k, false⟩ } : State).setPort p
        { (s.port p).settled with state := .testing } := by
  simp only [claimed, phone]
  cases p <;> rfl

/-! ## The requests that act -/

/-- Settles O59: each request's own equation, and what the state it leaves holds. -/
theorem actionsAreTaken : Obligations.ActionsAreTaken := by
  unfold Obligations.ActionsAreTaken
  intro via s powered channel
  have d : Dispatchable via s := ⟨powered, channel⟩
  dsimp only
  refine ⟨⟨exec_lineEnable_stays d, ?enable, exec_lineDisable_off d, ?disableService, ?disableAttempt, ?disableTest,
      ?retrainService, ?retrainWait, ?retrainAttempt, exec_retrain_refused d⟩,
    ⟨fun test port force beyond => exec_runTest_unknown d beyond port force, ?runTest⟩,
    ?clearStatus, exec_restart d, fun op => ⟨?erase, fun i current => exec_setArchiveMode_keep d op current,
      exec_factoryOpen d op, exec_factoryClose d op,
      fun tone low high opened idle blank => exec_factoryProgram_holdCeiling d op low high opened idle blank⟩⟩
  case enable => exact fun off awake => ⟨_, exec_lineEnable_off d off awake, rfl, rfl, rfl, rfl, rfl, rfl, rfl⟩
  case disableService =>
    rintro service ⟨full, noHold⟩
    refine ⟨_, exec_lineDisable_service d service full noHold, ?_⟩
    have counts : OnlySeconds s _ :=
      leaveServiceTo_onlySeconds (why := .disabled) rfl .off { s with line.enabled := false }
    rw [leaveServiceTo_line]
    exact ⟨rfl, rfl, rfl, rfl, leaveServiceTo_outOfService _ _ _, counts.2⟩
  case disableAttempt =>
    intro attempt noTest
    have given := abortLineTest_none (s := endAttempt { s with line.enabled := false }) noTest
    refine ⟨_, exec_lineDisable_other d ?_ ?_ given, rfl, rfl, ⟨rfl, rfl, rfl, rfl, rfl, rfl, rfl,
      fun p pass => endAttempt_pass _ pass⟩, rfl⟩
    all_goals
      rcases attempt with h | h | h | h <;> simp [h]
  case disableTest =>
    intro c test claim line noPort
    have given := abortLineTest_line (s := endAttempt { s with line.enabled := false }) claim line
    refine ⟨_, exec_lineDisable_other d (by simp [test]) (by simp [test]) given, ?_⟩
    obtain ⟨a, e⟩ := abortClaim_eq c (endAttempt { s with line.enabled := false })
    rw [e, noPort]
    refine ⟨rfl, rfl, ⟨rfl, rfl, rfl, rfl, rfl, rfl, rfl, fun p pass => endAttempt_pass _ pass⟩, rfl, ?_, rfl⟩
    exact raise_notices_congr _ _ _ _ rfl rfl rfl rfl
  case retrainService =>
    rintro service ⟨full, noHold⟩
    refine ⟨_, exec_retrain_service d service full noHold, ?_⟩
    rw [leaveServiceTo_line]
    exact ⟨rfl, rfl, rfl, rfl, rfl, leaveServiceTo_outOfService _ _ _, leaveServiceTo_retrains rfl _⟩
  case retrainWait => exact fun wait => ⟨_, exec_retrain_wait d wait, rfl, rfl, rfl, rfl, rfl, rfl, rfl⟩
  case retrainAttempt => exact fun attempt => ⟨_, exec_retrain_attempt d attempt, rfl, rfl, rfl, rfl, rfl, rfl⟩
  case runTest =>
    intro k port force
    rw [← lineTest_iff, Bool.not_eq_true]
    refine ⟨fun phone one two => exec_runTest_nowhere d phone one two force,
      fun target => ⟨exec_runTest_busy d target force, exec_runTest_unsupplied d target force⟩,
      fun free full => ⟨fun line => ⟨fun refuses => ?_, fun still => ?_, fun shaking => ?_,
        fun service forced allFree noHold => ?_⟩, fun phone p named => ?_⟩⟩
    · exact exec_runTest_lineRefused d free full line port (lineRefuses_of refuses)
    · have taken := exec_runTest_lineTaken d free full line port (force := force)
        (lineRefuses_not (still.elim .inl fun wait => .inr (.inl wait)))
      rw [takeLine_still _ line force still] at taken
      cases k <;> exact taken
    · have taken := exec_runTest_lineTaken d free full line port (force := force)
        (lineRefuses_not (.inr (.inr (.inl shaking))))
      rw [takeLine_handshake _ line force shaking] at taken
      refine ⟨_, taken, rfl, ⟨rfl, rfl, rfl, rfl, rfl, rfl, rfl, fun p pass => endAttempt_pass _ pass⟩, ?_, rfl⟩
      unfold lineClaim
      rw [shaking]
      cases k <;> rfl
    · subst forced
      have taken := exec_runTest_lineTaken d free full line port (force := true)
        (lineRefuses_not (.inr (.inr (.inr ⟨service, rfl, allFree⟩))))
      rw [takeLine_service _ line service full noHold] at taken
      refine ⟨_, taken, ?_⟩
      have counts : OnlySeconds s _ := leaveServiceTo_onlySeconds (why := .test) rfl .test
        { s with tester.claim := some (lineClaim k (Channel.origin via.ch) true s) }
      obtain ⟨-, -, -, -, -, tester⟩ := leaveServiceTo_keeps .test .test
        { s with tester.claim := some (lineClaim k (Channel.origin via.ch) true s) }
      rw [leaveServiceTo_line, tester]
      refine ⟨rfl, rfl, rfl, ?_, leaveServiceTo_outOfService _ _ _, counts.2⟩
      unfold lineClaim
      rw [service]
      cases k <;> rfl
    · subst named
      have taken := exec_runTest_ofPort d free full phone p force
      rw [onPort_toTesting phone] at taken
      cases k <;> exact taken
  case clearStatus =>
    intro error
    refine ⟨_, exec_clearArchiveStatus d, ?_⟩
    have sound := clearStatus_sound error
    dsimp only
    rw [respond_archive]
    exact ⟨sound.programs, sound.erases, sound.state⟩
  case erase =>
    intro b known awake ready numbers block four _ empty
    refine ⟨_, exec_eraseArchiveBlock d op known awake ready numbers block, ?_⟩
    dsimp only
    rw [respond_archive]
    exact Archive.beginErase_empty empty (by omega) _

end Sys2Proof.Machine
end

section
namespace Sys2Proof.Machine

/-! ## A window that passes without its event (R73) -/

/-- A withdrawal clears the due flag and may take back the outstanding schedule; the tracker and the schedules in force stay
as they are, and what is sent or taken back changes the overhead channel and the owners of what it evicts (R76). -/
theorem withdrawSchedule_frame (inForce : Bool) (s : State) :
    ∃ out o n g, withdrawSchedule inForce s = { s with
      impulse := { s.impulse with due := false, downOut := out }, overhead := o, notices := n, mgmt := g } := by
  unfold withdrawSchedule
  dsimp only
  split <;> split
  · obtain ⟨o, n, g, e⟩ := offer_frame .quietCancel
      (withdraw isQuietSchedule { s with impulse := { s.impulse with due := false, downOut := none } })
    exact ⟨none, o, n, g, e⟩
  · exact ⟨none, _, s.notices, s.mgmt, rfl⟩
  · obtain ⟨o, n, g, e⟩ := offer_frame .quietCancel { s with impulse := { s.impulse with due := false } }
    exact ⟨s.impulse.downOut, o, n, g, e⟩
  · exact ⟨s.impulse.downOut, s.overhead, s.notices, s.mgmt, rfl⟩

theorem windowCloses_missed {s : State} (few : s.impulse.missCount < 2) : windowCloses s = { s with
    impulse := { s.impulse with
      missCount := s.impulse.missCount + 1, tail := none
      prediction := some (s.impulse.p - tolerance s.impulse.p) } } := if_pos (Nat.succ_lt_succ few)

/-- The tracker as the third miss leaves it (R73). -/
def Impulse.lockLost (i : Impulse) : Impulse :=
  { i with
    state := .search, reference := none, p := 0, matchCount := 0, missCount := 0, prediction := none, tail := none }

theorem windowCloses_third {s : State} (third : s.impulse.missCount = 2) : windowCloses s =
    cancelDown (raise .impulse .minor .impulseLost [(s.impulse.p : Int)] { s with impulse := s.impulse.lockLost }) :=
  if_neg (by omega)

/-- The lost lock also cancels the downstream schedule (R76): the due flag is cleared and the outstanding schedule may be taken
back. -/
theorem windowCloses_lost {s : State} (third : s.impulse.missCount = 2) : ∃ out o a n g, windowCloses s = { s with
    impulse := { s.impulse.lockLost with due := false, downOut := out }
    overhead := o, archive := a, notices := n, mgmt := g } := by
  obtain ⟨a, n, told⟩ := raise_frame .impulse .minor .impulseLost [(s.impulse.p : Int)]
    { s with impulse := s.impulse.lockLost }
  obtain ⟨out, o, n', g, cancelled⟩ := withdrawSchedule_frame s.impulse.down.isSome
    { s with impulse := s.impulse.lockLost, archive := a, notices := n }
  rw [windowCloses_third third, told]
  exact ⟨out, o, a, n', g, cancelled⟩

theorem exec_windowTailExpiry {s : State} (hs : s.powered = true) (service : s.line.state = .service)
    (locked : s.impulse.state = .locked) (ended : s.impulse.tail = some 0) :
    exec .windowTailExpiry s = .next (windowCloses s) :=
  exec_of_due hs rfl (by simp [service, locked, ended])

/-- Settles O40: the two timers' ends, and what the third miss cancels. -/
theorem predictionPasses : Obligations.PredictionPasses := by
  unfold Obligations.PredictionPasses
  intro s hs service locked
  refine ⟨fun reached => ?_, fun ended few => ?_, fun ended third => ?_⟩
  · exact exec_of_due (c := .predictionTimerExpiry) hs rfl (by simp [service, locked, reached])
  · rw [exec_windowTailExpiry hs service locked ended, windowCloses_missed few]
    rfl
  · obtain ⟨out, o, a, n, g, lost⟩ := windowCloses_lost third
    refine ⟨_, exec_windowTailExpiry hs service locked ended, ?_⟩
    rw [lost]
    exact ⟨rfl, rfl, rfl, rfl, rfl, rfl, rfl, rfl, rfl⟩

/-! ## Quiet schedules of the two directions (R74, R76, R77) -/

/-- A schedule that starts 16..32 cycles ahead goes out under the name of its first window start (R74). -/
theorem offerSchedule_ahead {s : State} {start : Nat} (starts : scheduleStart s = some start)
    (low : 16 ≤ posSub start s.time.symbolCounter / 40) (high : posSub start s.time.symbolCounter / 40 ≤ 32)
    (service : s.line.state = .service) (free : OverheadFree s) : offerSchedule s = { s with
      impulse := { s.impulse with
        due := false
        downOut := some ⟨Schedule.from s.impulse.p start s.impulse.width, (nameOf s.time start).1,
          (nameOf s.time start).2, false⟩ }
      overhead := enqueueLast
        (.quietSchedule s.impulse.p (nameOf s.time start).1 (nameOf s.time start).2 s.impulse.width) s.overhead } := by
  unfold offerSchedule
  rw [starts]
  dsimp only
  rw [if_pos ⟨low, high⟩]
  exact offer_room _ _ service free.room free.line free.signal

/-- An upstream schedule within the ranges of R77 passes its checks. -/
theorem scheduleFault_none {period cycle width : Nat} {s : State} (periodIn : 1600 ≤ period ∧ period ≤ 16000)
    (widthIn : 1 ≤ width ∧ width ≤ 4)
    (startIn : 1 ≤ ahead cycle s.time.cycleCount ∧ ahead cycle s.time.cycleCount ≤ 64) :
    scheduleFault .tx period cycle width s = 0 := by
  unfold scheduleFault
  dsimp only
  rw [if_neg (not_not_intro rfl), if_neg (by omega), if_neg (by omega), if_neg (by omega)]

theorem takeSchedule_passes {dir : Dir} {period cycle width : Nat} {s : State} (symbol : Nat)
    (sound : scheduleFault dir period cycle width s = 0) : takeSchedule dir period cycle symbol width s = { s with
      impulse := { s.impulse with
        upNext := s.impulse.upNext ++ [Schedule.from period (positionOf s.time cycle symbol) width] } } := if_pos sound

theorem takeCancel_up {s : State} {x : Schedule} (up : s.impulse.up = some x) : takeCancel .tx s = { s with
    impulse := { s.impulse with
      upEnding := true, upNext := s.impulse.upNext.filter fun x => beforeBoundary s.time x.first } } :=
  if_neg (by simp [up])

/-- A QUIET_CANCEL of the downstream windows ends them, clears the due flag and holds until the tracker locks again; it leaves
the schedule in force until then (R76, log entry 50). -/
theorem takeCancel_down (s : State) : ∃ out o n g, takeCancel .rx s = { s with
    impulse := { s.impulse with exchangeCancel := true, due := false, downEnding := true, downOut := out }
    overhead := o, notices := n, mgmt := g } := by
  obtain ⟨out, o, n, g, e⟩ :=
    withdrawSchedule_frame false { s with impulse := { s.impulse with exchangeCancel := true } }
  unfold takeCancel
  dsimp only
  rw [e]
  exact ⟨_, o, n, g, rfl⟩

theorem exec_quietScheduleOffer {s : State} (hs : s.powered = true) (service : s.line.state = .service)
    (boundary : s.time.symbolNo = 0) (due : s.impulse.due = true) (clear : s.impulse.downOut = none)
    (locked : s.impulse.state = .locked) : exec .quietScheduleOffer s = .next (offerSchedule s) :=
  exec_of_due hs rfl (by simp [service, atBoundary_of_zero boundary, due, clear, locked])

theorem exec_quietSchedule {s : State} (hs : s.powered = true) (service : s.line.state = .service)
    (dir : Dir) (period cycle symbol width : Nat) :
    exec (.quietSchedule dir period cycle symbol width) s = .next (takeSchedule dir period cycle symbol width s) :=
  exec_of_due hs rfl (by simp [service])

theorem exec_quietCancel {s : State} (hs : s.powered = true) (service : s.line.state = .service) (dir : Dir) :
    exec (.quietCancel dir) s = .next (takeCancel dir s) :=
  exec_of_due hs rfl (by simp [service])

/-- Settles O41: the offer, the accepted message and the cancel of either direction. -/
theorem schedulesAreExchanged : Obligations.SchedulesAreExchanged := by
  unfold Obligations.SchedulesAreExchanged
  intro s hs service
  refine ⟨fun start boundary due clear locked starts low high room line signal => ?_,
    fun period cycle symbol width period1 period2 width1 width2 _ _ count start1 start2 => ?_, fun x up => ?_, ?_⟩
  · rw [exec_quietScheduleOffer hs service boundary due clear locked,
      offerSchedule_ahead starts low high service ⟨room, line, signal⟩]
    rfl
  · rw [← ahead_eq cycle count] at start1 start2
    have sound : scheduleFault .tx period cycle width s = 0 :=
      scheduleFault_none ⟨period1, period2⟩ ⟨width1, width2⟩ ⟨start1, start2⟩
    dsimp only
    rw [exec_quietSchedule hs service, takeSchedule_passes symbol sound, ← ahead_eq cycle count]
    rfl
  · refine ⟨_, exec_quietCancel hs service .tx, ?_⟩
    rw [takeCancel_up up]
    exact ⟨rfl, up, rfl⟩
  · obtain ⟨out, o, n, g, cancelled⟩ := takeCancel_down s
    refine ⟨_, exec_quietCancel hs service .rx, ?_⟩
    rw [cancelled]
    exact ⟨rfl, rfl, rfl, rfl, rfl⟩

end Sys2Proof.Machine
end

section
namespace Sys2Proof.Machine

/-! ## What serving the archive leaves of an erase (R155, R160) -/

@[simp] theorem foldl_miss_erase (l : List ArchCopy) (a : Archive) : (l.foldl (fun x _ => x.miss) a).erase = a.erase := by
  induction l generalizing a with
  | nil => rfl
  | cons c rest ih => exact ih a.miss

@[simp] theorem Archive.begin_erase (a : Archive) (c : ArchCopy) (b k : Nat) : (a.begin c b k).erase = a.erase := by
  unfold Archive.begin
  dsimp only
  split
  · exact foldl_miss_erase _ _
  · rfl

@[simp] theorem Archive.serve_erase (a : Archive) : a.serve.erase = a.erase := by
  rcases a.serve_cases with e | ⟨before, c, after, b, k, -, -, e, -⟩
  · rw [e]
  · rw [e, Archive.begin_erase]

theorem Archive.makeCurrent_erase (a : Archive) (i : Nat) : (a.makeCurrent i).erase = a.erase := Archive.serve_erase _

theorem Archive.missMinor_erase (a : Archive) : a.missMinor.erase = a.erase := foldl_miss_erase _ _

theorem Archive.arrive_erase (a : Archive) (c : ArchCopy) : (a.arrive c).erase = a.erase := by
  unfold Archive.arrive
  dsimp only
  split
  · rfl
  · split
    · rfl
    · split
      · exact Archive.serve_erase _
      · split
        · exact Archive.serve_erase _
        · rfl

theorem raise_erase (cls : NoticeClass) (sev : Severity) (code : NoticeCode) (ps : List Int) (s : State) :
    (raise cls sev code ps s).archive.erase = s.archive.erase := by
  rw [raise_archive]
  unfold copyToArchive
  split
  · exact Archive.arrive_erase _ _
  · rfl

/-- The rotation step changes the archive, and raises ARCHIVE_FULL (R159). -/
theorem rotate_frame (s : State) : ∃ a n, rotate s = { s with archive := a, notices := n } := by
  unfold rotate
  dsimp only
  split
  · exact ⟨s.archive, s.notices, rfl⟩
  · split
    · exact ⟨s.archive, s.notices, rfl⟩
    · split
      · split
        · exact ⟨s.archive, s.notices, rfl⟩
        · exact ⟨_, s.notices, rfl⟩
      · split
        · split
          · exact ⟨_, s.notices, rfl⟩
          · exact ⟨s.archive, s.notices, rfl⟩
        · split
          · exact ⟨_, s.notices, rfl⟩
          · exact raise_frame .archive .minor .archiveFull [] { s with archive := { s.archive.missMinor with fullReported := true } }

/-- In DORMANT the rotation step begins no erase (R163). -/
theorem rotate_erase {s : State} (dormant : s.supply.state = .dormant) : (rotate s).archive.erase = s.archive.erase := by
  unfold rotate
  dsimp only
  split
  · rfl
  · split
    · rfl
    · split
      · split
        · rfl
        · exact Archive.makeCurrent_erase _ _
      · split
        · rw [if_neg (by simp [dormant])]
        · split
          · exact Archive.missMinor_erase _
          · exact (raise_erase _ _ _ _ _).trans (Archive.missMinor_erase _)

theorem abortErase_frame (s : State) : ∃ a n, abortErase s = { s with archive := a, notices := n } := by
  unfold abortErase
  split
  · exact ⟨s.archive, s.notices, rfl⟩
  · dsimp only
    split
    · exact ⟨_, s.notices, rfl⟩
    · exact rotate_frame { s with archive := Archive.serve _ }

/-- No erase is left after the entry to DORMANT (R163). -/
theorem abortErase_erase {s : State} (dormant : s.supply.state = .dormant) : (abortErase s).archive.erase = none := by
  unfold abortErase
  split
  · assumption
  · dsimp only
    split
    · rfl
    · exact (rotate_erase (s := { s with archive := Archive.serve _ }) dormant).trans (Archive.serve_erase _)

/-! ## What the emptying of the data queues leaves (R126, R131) -/

theorem kickHome_queues (s : State) : (kickHome s).data.priority = s.data.priority ∧
    (kickHome s).data.bulk = s.data.bulk ∧ (kickHome s).data.buffer = s.data.buffer := by
  unfold kickHome
  split
  · split
    · exact ⟨rfl, rfl, rfl⟩
    · split <;> exact ⟨rfl, rfl, rfl⟩
  · exact ⟨rfl, rfl, rfl⟩

theorem judgeFlow_queues (s : State) : (judgeFlow s).data.priority = s.data.priority ∧
    (judgeFlow s).data.bulk = s.data.bulk ∧ (judgeFlow s).data.buffer = s.data.buffer := by
  unfold judgeFlow
  dsimp only
  split
  · split
    · exact kickHome_queues _
    · exact ⟨rfl, rfl, rfl⟩
  · split
    · split
      · exact kickHome_queues _
      · exact ⟨rfl, rfl, rfl⟩
    · exact ⟨rfl, rfl, rfl⟩

theorem emptyQueues_frame (s : State) : ∃ d, emptyQueues s = { s with data := d, framer.up := .boundary } ∧
    d.priority = [] ∧ d.bulk = [] ∧ d.buffer = s.data.buffer := by
  obtain ⟨d, e⟩ := judgeFlow_frame { s with data.priority := [], data.bulk := [], framer.up := .boundary }
  have queues := judgeFlow_queues { s with data.priority := [], data.bulk := [], framer.up := .boundary }
  rw [e] at queues
  exact ⟨d, e, queues⟩

/-! ## The wakes and the line at the entry to DORMANT (R184, R186) -/

theorem takeWake_frame (why : WakeReason) (s : State) : ∃ r n, takeWake why s =
    { s with supply := { s.supply with wakeReason := r, settle := n } } := by
  unfold takeWake
  split
  · exact ⟨_, _, rfl⟩
  · exact ⟨s.supply.wakeReason, s.supply.settle, rfl⟩

theorem wakeIfReturning_frame (s : State) : ∃ r n, wakeIfReturning s =
    { s with supply := { s.supply with wakeReason := r, settle := n } } := by
  unfold wakeIfReturning
  split
  · exact takeWake_frame _ s
  · exact ⟨s.supply.wakeReason, s.supply.settle, rfl⟩

theorem giveBack_home (m : Msg) (s : State) : (giveBack m s).mgmt.home = s.mgmt.home := by
  unfold giveBack
  split
  · obtain ⟨n, e⟩ := returnNotice_frame .overhead ‹Notice› s
    rw [e]
  · rfl
  · rfl

theorem stopOverhead_home (s : State) : (stopOverhead s).mgmt.home = s.mgmt.home := by
  unfold stopOverhead
  dsimp only
  split
  · split
    · split
      · rfl
      · exact giveBack_home _ _
    · rfl
  · rfl

theorem beforeLoss_home (why : LossReason) (s : State) : (beforeLoss why s).mgmt.home = s.mgmt.home := by
  have closed := (raise_reported .line .major .serviceLost [(why.code : Int)] s).trans (closeSecond_reported _)
  refine (stopOverhead_home _).trans ?_
  split
  · obtain ⟨p, a, n, e⟩ := closed.trans (count_reported .retrains _)
    rw [e]
    rfl
  · obtain ⟨p, a, n, e⟩ := closed
    rw [e]
    rfl

/-- The values of the home side, of the Factory Store and of time that the entry to DORMANT leaves, and the test claim. -/
def State.apart (s : State) :=
  (s.factory.items, s.factory.isOpen, { s.time with halfMs := 0 }, s.data.buffer, s.mgmt.home, s.tester.claim)

theorem claim_of_apart {s t : State} (h : t.apart = s.apart) : t.tester.claim = s.tester.claim := by
  simp only [State.apart, Prod.mk.injEq] at h
  obtain ⟨-, -, -, -, -, claim⟩ := h
  exact claim

theorem leaveServiceTo_apart (why : LossReason) (next : LineState) (s : State) :
    (leaveServiceTo why next s).apart = s.apart := by
  have home := beforeLoss_home why s
  obtain ⟨p, a, n, o, g, e⟩ := beforeLoss_frame why s
  rw [leaveServiceTo_eq]
  rw [e] at home ⊢
  simp only at home
  simp only [State.apart, freeAllSlots, home]

theorem abortTest_none {s : State} (h : s.tester.claim = none) : abortTest s = s := by
  unfold abortTest
  rw [h]

/-- With no test running the line goes OFF and the supply, the home side and time stay as they are (R43). -/
theorem lineToOff_free (why : LossReason) {s : State} (claim : s.tester.claim = none)
    (waiting : s.supply.powerLossWaiting = false) : (lineToOff why s).line.state = .off ∧
      (lineToOff why s).supply = s.supply ∧ (lineToOff why s).apart = s.apart := by
  by_cases service : s.line.state = .service
  · have e : lineToOff why s = leaveServiceTo why .off s := by
      unfold lineToOff
      rw [service]
    rw [e, leaveServiceTo_line, leaveServiceTo_supply, ← waiting]
    exact ⟨rfl, rfl, leaveServiceTo_apart why .off s⟩
  by_cases off : s.line.state = .off
  · rw [lineToOff_off why off]
    exact ⟨off, rfl, rfl⟩
  · rw [lineToOff_other why service off, abortLineTest_none (by simp [endAttempt, claim])]
    exact ⟨rfl, rfl, rfl⟩

/-! ## DORMANT (R184) -/

/-- What the entry to DORMANT leaves and the local timebase keeps (R184). -/
structure AtRest (t : State) : Prop where
  state : t.supply.state = .dormant
  hold : t.supply.powerLossHold = none
  line : t.line.state = .off
  allowance : t.handset.allowance = 0
  priority : t.data.priority = []
  bulk : t.data.bulk = []
  erase : t.archive.erase = none

theorem AtRest.fields {t : State} (rest : AtRest t) : t.supply.state = .dormant ∧ t.supply.powerLossHold = none ∧
    t.line.state = .off ∧ t.handset.allowance = 0 ∧ t.data.priority = [] ∧ t.data.bulk = [] ∧ t.archive.erase = none :=
  ⟨rest.state, rest.hold, rest.line, rest.allowance, rest.priority, rest.bulk, rest.erase⟩

/-- What follows the move of the ring allowance to 0 at the entry to DORMANT, with no test running: an erase ends, the data queues
are emptied and a wake may be taken (R131, R163, R186). -/
theorem afterAllowance_free {t : State} (claim : t.tester.claim = none) (dormant : t.supply.state = .dormant) :
    ∃ a n d r k, wakeIfReturning (emptyQueues (abortErase (abortTest t))) = { t with
      archive := a, notices := n, data := d, framer.up := .boundary
      supply := { t.supply with wakeReason := r, settle := k } } ∧
      a.erase = none ∧ d.priority = [] ∧ d.bulk = [] ∧ d.buffer = t.data.buffer := by
  have noErase := abortErase_erase dormant
  obtain ⟨a, n, aborted⟩ := abortErase_frame t
  obtain ⟨d, emptied, queues⟩ := emptyQueues_frame { t with archive := a, notices := n }
  obtain ⟨r, k, woken⟩ := wakeIfReturning_frame { t with archive := a, notices := n, data := d, framer.up := .boundary }
  rw [aborted] at noErase
  rw [abortTest_none claim, aborted, emptied, woken]
  exact ⟨a, n, d, r, k, rfl, noErase, queues⟩

/-- With no test running, what the entry to DORMANT leaves and what it does not touch (R184). -/
theorem enterDormant_free {s : State} (claim : s.tester.claim = none) : AtRest (enterDormant s) ∧
    (enterDormant s).apart = s.apart ∧ (enterDormant s).supply.wakeWindow = none := by
  obtain ⟨off, asleep, apart⟩ := lineToOff_free .dormant (s := { s with supply := s.supply.asleep }) claim rfl
  have allowance := (setAllowance_within 0 (lineToOff .dormant { s with supply := s.supply.asleep })).allowance
  rw [enterDormant_eq]
  generalize lineToOff .dormant { s with supply := s.supply.asleep } = t at *
  obtain ⟨h, quiet⟩ := setAllowance_frame 0 t
  have noClaim : t.tester.claim = none := (claim_of_apart apart).trans claim
  have sleeping : t.supply.state = .dormant := congrArg Supply.state asleep
  rw [quiet] at allowance ⊢
  obtain ⟨a, n, d, r, k, e, noErase, priority, bulk, buffer⟩ :=
    afterAllowance_free (t := { t with handset := h }) noClaim sleeping
  rw [e]
  have noHold : t.supply.powerLossHold = none := congrArg Supply.powerLossHold asleep
  refine ⟨⟨sleeping, noHold, off, allowance, priority, bulk, noErase⟩, ?_, congrArg Supply.wakeWindow asleep⟩
  rw [show s.apart = ({ s with supply := s.supply.asleep } : State).apart from rfl, ← apart]
  simp only [State.apart, buffer]

/-! ## The power-loss hold on the local timebase (R185) -/

theorem powerLossCheck_none {s : State} (h : s.supply.powerLossHold = none) : powerLossCheck s = s := by
  unfold powerLossCheck
  rw [h]

/-- The hold is judged: DORMANT at its end, or after 1 ms with no message waiting, and otherwise nothing (R185). -/
theorem powerLossCheck_some {s : State} {h : Nat} (hold : s.supply.powerLossHold = some h) : powerLossCheck s =
    if h = 0 ∨ (h ≤ 298 ∧ s.supply.powerLossWaiting = false) then enterDormant s else s := by
  unfold powerLossCheck
  rw [hold]
  simp

@[simp] theorem halfTicked_hold (s : State) : (halfTicked s).supply.powerLossHold = tickDown s.supply.powerLossHold := by
  unfold halfTicked
  dsimp only
  split <;> rfl

@[simp] theorem halfTicked_waiting (s : State) : (halfTicked s).supply.powerLossWaiting = s.supply.powerLossWaiting := by
  unfold halfTicked
  dsimp only
  split <;> rfl

@[simp] theorem halfTicked_supplyState (s : State) : (halfTicked s).supply.state = s.supply.state := by
  unfold halfTicked
  dsimp only
  split <;> rfl

theorem halfTicked_apart (s : State) : (halfTicked s).apart = s.apart := by
  unfold halfTicked
  dsimp only
  split <;> rfl

theorem halfTicked_atRest {s : State} (rest : AtRest s) : AtRest (halfTicked s) := by
  have noErase : s.archive.tick.erase = none := by simp [Archive.tick, rest.erase]
  have noHold : tickDown s.supply.powerLossHold = none := by rw [rest.hold]; rfl
  unfold halfTicked
  dsimp only
  split
  · exact ⟨rest.state, noHold, rest.line, rest.allowance, rest.priority, rest.bulk, noErase⟩
  · exact ⟨rest.state, noHold, rest.line, rest.allowance, rest.priority, rest.bulk, noErase⟩

theorem halfTick_noHold {s : State} (h : s.supply.powerLossHold = none) : halfTick s = halfTicked s := by
  rw [halfTick_eq, powerLossCheck_none]
  rw [halfTicked_hold, h]
  rfl

theorem advance_atRest (n : Nat) {s : State} (rest : AtRest s) : AtRest (advance n s) := by
  induction n generalizing s with
  | zero => exact rest
  | succ n ih =>
    rw [advance, halfTick_noHold rest.hold]
    exact ih (halfTicked_atRest rest)

theorem powerLossCheck_apart {s : State} (claim : s.tester.claim = none) : (powerLossCheck s).apart = s.apart := by
  unfold powerLossCheck
  split
  · split
    · obtain ⟨-, apart, -⟩ := enterDormant_free claim
      exact apart
    · rfl
  · rfl

theorem advance_apart (n : Nat) {s : State} (claim : s.tester.claim = none) : (advance n s).apart = s.apart := by
  induction n generalizing s with
  | zero => rfl
  | succ n ih =>
    have ticked := halfTicked_apart s
    have tick : (halfTick s).apart = s.apart :=
      (powerLossCheck_apart ((claim_of_apart ticked).trans claim)).trans ticked
    exact (ih ((claim_of_apart tick).trans claim)).trans tick

/-- The local timebase brings the hold to its end, and DORMANT is entered there or before (R185; log entry 3). -/
theorem advance_endsHold (n : Nat) {s : State} {h : Nat} (hold : s.supply.powerLossHold = some h) (running : 1 ≤ h)
    (enough : h ≤ n) (claim : s.tester.claim = none) : AtRest (advance n s) := by
  induction n generalizing s h with
  | zero => omega
  | succ n ih =>
    have left : (halfTicked s).supply.powerLossHold = some (h - 1) := by
      rw [halfTicked_hold, hold]
      rfl
    have noClaim := (claim_of_apart (halfTicked_apart s)).trans claim
    rw [advance, halfTick_eq, powerLossCheck_some left]
    split
    · exact advance_atRest n (enterDormant_free noClaim).1
    · rename_i more
      exact ih left (by omega) (by omega) noClaim

/-- Once 1 ms has passed, a hold with no message waiting ends in DORMANT (R185). -/
theorem powerLossCheck_spent {s : State} {h : Nat} (hold : s.supply.powerLossHold = some h) (passed : h ≤ 298)
    (sent : s.supply.powerLossWaiting = false) (claim : s.tester.claim = none) : AtRest (powerLossCheck s) := by
  rw [powerLossCheck_some hold, if_pos (.inr ⟨passed, sent⟩)]
  exact (enterDormant_free claim).1

end Sys2Proof.Machine
end

section
namespace Sys2Proof.Machine

/-! ## Waking (R186, R187) -/

/-- What the loop timers, without a power-loss hold, do not reach: the line and its tables, the data queues, the test claim, and
of time all but the half millisecond. -/
def State.beyond (s : State) :=
  (s.tones, s.loader, s.line, s.shifts, s.impulse, s.framer, s.data, s.tester, { s.time with halfMs := 0 })

/-- Two times that agree but for the half millisecond. -/
theorem Time.eq_of_halfMs {a b : Time} (h : { a with halfMs := 0 } = ({ b with halfMs := 0 } : Time)) :
    a = { b with halfMs := a.halfMs } := by
  obtain ⟨_, _, _, _, _, _, _, _⟩ := a
  obtain ⟨_, _, _, _, _, _, _, _⟩ := b
  simpa using h

theorem halfTicked_beyond (s : State) : (halfTicked s).beyond = s.beyond := by
  unfold halfTicked
  dsimp only
  split <;> rfl

theorem halfTicked_mains (s : State) : (halfTicked s).supply.mainsPresent = s.supply.mainsPresent := by
  unfold halfTicked
  dsimp only
  split <;> rfl

/-- Without a power-loss hold the local timebase moves timers only. -/
theorem advance_noHold (n : Nat) {s : State} (h : s.supply.powerLossHold = none) :
    (advance n s).beyond = s.beyond ∧ (advance n s).supply.powerLossHold = none ∧
      (advance n s).supply.state = s.supply.state ∧ (advance n s).supply.mainsPresent = s.supply.mainsPresent := by
  induction n generalizing s with
  | zero => exact ⟨rfl, h, rfl, rfl⟩
  | succ n ih =>
    have ticked : (halfTicked s).supply.powerLossHold = none := by rw [halfTicked_hold, h]; rfl
    obtain ⟨beyond, hold, state, mains⟩ := ih ticked
    rw [advance, halfTick_noHold h]
    exact ⟨beyond.trans (halfTicked_beyond s), hold, state.trans (halfTicked_supplyState s), mains.trans (halfTicked_mains s)⟩

theorem line_of_beyond {s t : State} (h : t.beyond = s.beyond) : t.line = s.line := by
  simp only [State.beyond, Prod.mk.injEq] at h
  obtain ⟨-, -, line, -⟩ := h
  exact line

/-- An enabled line that is OFF moves to HANDSHAKE as the supply leaves DORMANT, and the rotation step is taken (R43, R163,
R187). -/
theorem awaken_off {s : State} (off : s.line.state = .off) (enabled : s.line.enabled = true) :
    ∃ a n, awaken s = { leaveOff s with archive := a, notices := n } := by
  unfold awaken
  rw [if_pos ⟨off, enabled⟩]
  exact rotate_frame _

/-- The supply record as a wake without mains leaves it: HOLD, with a wake window of 600 s (R187). -/
def Supply.wakened (p : Supply) : Supply := { p with state := .hold, settle := none, wakeWindow := some 600 }

theorem leaveDormant_eq {s : State} (mains : s.supply.mainsPresent = false) :
    let t := setAllowance 1 { s with supply := s.supply.wakened }
    leaveDormant s = awaken (raise .supply .info .woken [(t.supply.wakeReason.code : Int)] t) := by
  unfold leaveDormant
  dsimp only
  rw [if_neg (by simp [mains])]
  rfl

/-- Without mains the end of the settle period leaves DORMANT for HOLD, and an enabled line trains (R187). -/
theorem leaveDormant_hold {s : State} (mains : s.supply.mainsPresent = false) (off : s.line.state = .off)
    (enabled : s.line.enabled = true) :
    (leaveDormant s).supply = s.supply.wakened ∧ (leaveDormant s).handset.allowance = 1 ∧
      (leaveDormant s).line.state = .handshake ∧ (leaveDormant s).line.attempts = 0 := by
  have allowance := (setAllowance_within 1 { s with supply := s.supply.wakened }).allowance
  obtain ⟨h, allowed⟩ := setAllowance_frame 1 { s with supply := s.supply.wakened }
  rw [leaveDormant_eq mains]
  rw [allowed] at allowance ⊢
  obtain ⟨a, n, told⟩ := raise_frame .supply .info .woken [(s.supply.wakened.wakeReason.code : Int)]
    { s with handset := h, supply := s.supply.wakened }
  obtain ⟨a', n', awake⟩ := awaken_off
    (s := { s with handset := h, archive := a, notices := n, supply := s.supply.wakened }) off enabled
  dsimp only
  rw [told, awake]
  exact ⟨rfl, allowance, rfl, rfl⟩

theorem exec_settleTimerExpiry {s : State} {n : Nat} (hs : s.powered = true) (settle : s.supply.settle = some n)
    (dormant : s.supply.state = .dormant) : exec .settleTimerExpiry s = .next (leaveDormant (advanceTo n s)) := by
  change execSettleTimerExpiry s = _
  simp [execSettleTimerExpiry, hs, settle, dormant]

/-! ## On-phases (R94, R95) -/

/-- The on-phase of a cadence that follows an off-phase: that of the next pair, from pair 1 again after the last (R94). -/
def Cadence.nextOn (c : Cadence) : Cadence :=
  let pair := if c.pair + 1 < c.pairs.length then c.pair + 1 else 0
  ⟨c.pairs, pair, true, some (5 * (c.pairs.getD pair (1, 1)).1)⟩

theorem Cadence.advance_off {c : Cadence} (off : c.on = false) : c.advance = c.nextOn := by
  simp [Cadence.advance, Cadence.nextOn, Cadence.interval, off]

/-- The off interval of a cadence's present pair (R94). -/
theorem Cadence.advance_on {c : Cadence} (on : c.on = true) :
    c.advance = { c with on := false, timer := some (5 * (c.pairs.getD c.pair (1, 1)).2) } := by
  simp [Cadence.advance, Cadence.interval, on]

/-- A ringing port whose phase has ended. -/
structure PortRec.PhaseOver (r : PortRec) (c : Cadence) : Prop where
  ringing : r.state = .ringing
  cadence : r.cadence = some c
  timer : c.timer = some 0

theorem PortRec.PhaseOver.due {r : PortRec} {c : Cadence} (h : r.PhaseOver c) : r.phaseEndDue = true := by
  simp [PortRec.phaseEndDue, h.ringing, h.cadence, h.timer]

theorem PortRec.PhaseOver.onPhaseDue {r : PortRec} {c : Cadence} (h : r.PhaseOver c) : r.onPhaseDue = !c.on := by
  simp [PortRec.onPhaseDue, h.due, h.cadence]

theorem PortRec.PhaseOver.nextPhase {r : PortRec} {c : Cadence} (h : r.PhaseOver c) : r.nextPhase =
    { r with cadence := some c.advance, unitHeld := if c.on then false else r.unitHeld } := by
  simp [PortRec.nextPhase, h.due, h.cadence]

theorem PortRec.phaseEndDue_silent {r : PortRec} (h : r.state ≠ .ringing) : r.phaseEndDue = false := by
  unfold PortRec.phaseEndDue
  split
  · exact absurd ‹_› h
  · rfl

theorem PortRec.onPhaseDue_silent {r : PortRec} (h : r.state ≠ .ringing) : r.onPhaseDue = false := by
  simp [PortRec.onPhaseDue, PortRec.phaseEndDue_silent h]

theorem PortRec.nextPhase_silent {r : PortRec} (h : r.state ≠ .ringing) : r.nextPhase = r := by
  unfold PortRec.nextPhase
  split
  · simp [PortRec.phaseEndDue_silent h]
  · rfl

/-- The table of R95 for two on-phases that start together. -/
theorem granted_both {free : Nat} {skip1 skip2 got1 got2 : Bool}
    (row : (2 ≤ free ∧ got1 = true ∧ got2 = true) ∨
      (free = 1 ∧ skip1 = false ∧ skip2 = true ∧ got1 = false ∧ got2 = true) ∨
      (free = 1 ∧ (skip1 = true ∨ skip2 = false) ∧ got1 = true ∧ got2 = false) ∨
      (free = 0 ∧ got1 = false ∧ got2 = false)) : granted free true true skip1 skip2 = (got1, got2) := by
  rcases row with ⟨two, rfl, rfl⟩ | ⟨one, first, second, rfl, rfl⟩ | ⟨one, kept, rfl, rfl⟩ | ⟨zero, rfl, rfl⟩
  · simp [granted, two]
  · simp [granted, one, first, second]
  · rcases kept with kept | kept <;> simp [granted, one, kept]
  · simp [granted, zero]

theorem exec_cadencePhaseEnd {s : State} {c : Cadence} (hs : s.powered = true) (ended : s.handset.p1.PhaseOver c) :
    exec .cadencePhaseEnd s = .next (endPhases s) :=
  exec_of_due hs rfl (by simp [ended.due])

/-- The units are granted to the ports whose on-phases start, with none held before (R94, R95). -/
theorem endPhases_starts {s : State} {c1 : Cadence} (ended : s.handset.p1.PhaseOver c1) (off : c1.on = false)
    (free1 : s.handset.p1.unitHeld = false) (free2 : s.handset.p2.nextPhase.unitHeld = false) :
    let got := granted s.handset.allowance true s.handset.p2.onPhaseDue s.handset.p1.skipped s.handset.p2.nextPhase.skipped
    endPhases s = { s with handset := { s.handset with
      p1 := { s.handset.p1 with cadence := some c1.nextOn, unitHeld := got.1, skipped := !got.1 }
      p2 := if s.handset.p2.onPhaseDue then s.handset.p2.nextPhase.onPhase got.2 else s.handset.p2.nextPhase } } := by
  have phase := ended.nextPhase
  rw [off, Cadence.advance_off off] at phase
  have held : unitsHeld (onPorts PortRec.nextPhase s) = 0 := by
    simp [unitsHeld, onPorts, onPort, State.port, State.setPort, phase, free1, free2]
  have starts : s.handset.p1.onPhaseDue = true := by simp [ended.onPhaseDue, off]
  unfold endPhases grantUnits
  rw [held, starts]
  cases s.handset.p2.onPhaseDue <;>
    simp [onPorts, onPort, State.port, State.setPort, PortRec.onPhase, phase]

/-! ## The commands that enter DORMANT (R184, R185, R188) -/

theorem exec_powerLossHoldExpiry {s : State} {h : Nat} (hs : s.powered = true) (hold : s.supply.powerLossHold = some h) :
    exec .powerLossHoldExpiry s = .next (powerLossCheck (advance h s)) := by
  change execPowerLossHoldExpiry s = _
  simp [execPowerLossHoldExpiry, hs, hold]

/-- The last byte of the POWER_LOSS message lets the hold be judged (R185). -/
theorem exec_powerLossSent {s : State} {x : Sending} {reason : Nat} (hs : s.powered = true)
    (sending : s.overhead.sending = some x) (msg : x.msg = .powerLoss reason) (left : x.left = []) :
    ∃ o, exec .overheadMessageSent s =
      .next (powerLossCheck { s with overhead := o, supply.powerLossWaiting := false }) := by
  obtain ⟨o, chosen⟩ := arbitrate_frame { s with overhead.sending := none }
  have ends : exec .overheadMessageSent s = .next (messageEnds x s) := by
    change execOverheadMessageSent s = _
    simp [execOverheadMessageSent, hs, sending, left]
  refine ⟨o, ends.trans ?_⟩
  rw [messageEnds, msg, chosen]
  rfl

/-- A loss of SERVICE 1 ms or more into the power-loss hold ends in DORMANT (R185). -/
theorem leaveService_spent (why : LossReason) (next : LineState) {s : State} {h : Nat}
    (hold : s.supply.powerLossHold = some h) (passed : h ≤ 298) (claim : s.tester.claim = none) :
    AtRest (leaveService why next s) := by
  have supply := leaveServiceTo_supply why next s
  have noClaim := (claim_of_apart (leaveServiceTo_apart why next s)).trans claim
  unfold leaveService dormancyCheck
  split
  · have rest := (enterDormant_free noClaim).1
    rw [powerLossCheck_none rest.hold]
    exact rest
  · exact powerLossCheck_spent (by rw [supply]; exact hold) passed (by rw [supply]) noClaim

/-- The first millisecond of a power-loss hold with no message placed ends in DORMANT (R185; log entry 1). -/
theorem advance_firstMs {s : State} (hold : s.supply.powerLossHold = some 300)
    (sent : s.supply.powerLossWaiting = false) (claim : s.tester.claim = none) : AtRest (advance 2 s) := by
  have first : (halfTicked s).supply.powerLossHold = some 299 := by rw [halfTicked_hold, hold]; rfl
  have second : (halfTicked (halfTicked s)).supply.powerLossHold = some 298 := by rw [halfTicked_hold, first]; rfl
  have apart : (halfTicked (halfTicked s)).apart = s.apart := (halfTicked_apart _).trans (halfTicked_apart s)
  have still : halfTick s = halfTicked s := by
    rw [halfTick_eq, powerLossCheck_some first, if_neg (by omega)]
  rw [advance, advance, advance, still, halfTick_eq]
  exact powerLossCheck_spent second le_rfl (by simpa using sent) ((claim_of_apart apart).trans claim)

theorem exec_wakeWindowExpiry {s : State} (hs : s.powered = true) (hold : s.supply.state = .hold)
    (window : s.supply.wakeWindow = some 0) :
    exec .wakeWindowExpiry s = .next (dormancyCheck { s with supply := { s.supply with wakeWindow := none } }) :=
  exec_of_due (f := fun s => dormancyCheck { s with supply := { s.supply with wakeWindow := none } }) hs rfl
    (by simp [hold, window])

/-- Settles O54: DORMANT is entered by way of the hold's judgment or of the dormancy condition. -/
theorem dormantIsEnteredAndLeft : Obligations.DormantIsEnteredAndLeft := by
  unfold Obligations.DormantIsEnteredAndLeft
  intro s hs
  refine ⟨fun h hold running _ claim => ?_, fun claim => ⟨fun h x reason hold passed sending msg left => ?_,
    fun h hold passed service los => ?_, fun hold sent => ?_⟩,
    fun awake window low free silent1 silent2 claim => ?_, fun awake window good => ?_,
    fun dormant settle line good => ?_, fun dormant settle hold mains off enabled => ?_,
    fun c1 ringing cadence on timer unit => ⟨fun silent unit2 => ?_, ?_⟩⟩
  · have rest := advance_endsHold h hold running le_rfl claim
    have apart := advance_apart h claim
    simp only [State.apart, Prod.mk.injEq] at apart
    obtain ⟨items, isOpen, time, buffer, home, -⟩ := apart
    refine ⟨_, exec_powerLossHoldExpiry hs hold, ?_⟩
    rw [powerLossCheck_none rest.hold]
    exact ⟨rest.state, rest.hold, rest.line, rest.allowance, rest.priority, rest.bulk, rest.erase, items, isOpen,
      Time.eq_of_halfMs time, buffer, home⟩
  · obtain ⟨o, e⟩ := exec_powerLossSent hs sending msg left
    have rest := powerLossCheck_spent (s := { s with overhead := o, supply.powerLossWaiting := false }) hold passed rfl claim
    exact ⟨_, e, rest.fields⟩
  · have rest := leaveService_spent .noSignal .wait hold passed claim
    exact ⟨_, exec_of_due (c := .noSignalTimeout) hs rfl (by simp [service, los]), rest.fields⟩
  · have rest := advance_firstMs (s := { s with pending := [] }) hold sent claim
    exact ⟨_, run_powered (advance 2) { s with pending := [] } hs, rest.fields⟩
  · obtain ⟨rest, -, noWindow⟩ := enterDormant_free (s := { s with supply := { s.supply with wakeWindow := none } }) claim
    refine ⟨_, exec_wakeWindowExpiry hs awake window, ?_⟩
    rw [dormancyCheck, if_pos (by simp [dormancyHolds, awake, low, free, silent1, silent2])]
    exact ⟨rest.state, noWindow, rest.line, rest.allowance⟩
  · rw [exec_wakeWindowExpiry hs awake window, dormancyCheck, if_neg (by simp [dormancyHolds, good])]
  · have taken : exec .lineWakeSignal s = .next (takeWake .line s) :=
      exec_of_due hs rfl (by simp [line, good, batteryCarries])
    rw [taken, takeWake, if_pos ⟨dormant, settle⟩]
  · obtain ⟨n, settle⟩ := Option.isSome_iff_exists.mp settle
    obtain ⟨beyond, -, -, sense⟩ := advance_noHold (2 * n - s.time.halfMs) hold
    have kept := line_of_beyond beyond
    obtain ⟨supply, allowance, state, attempts⟩ := leaveDormant_hold (s := advanceTo n s) (sense.trans mains)
      (by rw [advanceTo, kept]; exact off) (by rw [advanceTo, kept]; exact enabled)
    refine ⟨_, exec_settleTimerExpiry hs settle dormant, ?_⟩
    dsimp only
    rw [supply]
    exact ⟨rfl, rfl, rfl, allowance, state, attempts⟩
  · have ended : s.handset.p1.PhaseOver c1 := ⟨ringing, cadence, timer⟩
    rw [exec_cadencePhaseEnd hs ended, endPhases_starts ended on unit (by rw [PortRec.nextPhase_silent silent]; exact unit2)]
    simp only [PortRec.nextPhase_silent silent, PortRec.onPhaseDue_silent silent, granted]
    rfl
  · intro c2 got1 got2 ringing2 cadence2 on2 timer2 unit2 given
    have ended : s.handset.p1.PhaseOver c1 := ⟨ringing, cadence, timer⟩
    have ended2 : s.handset.p2.PhaseOver c2 := ⟨ringing2, cadence2, timer2⟩
    have phase2 := ended2.nextPhase
    rw [on2, Cadence.advance_off on2] at phase2
    rw [exec_cadencePhaseEnd hs ended, endPhases_starts ended on unit (by rw [phase2]; exact unit2), phase2,
      ended2.onPhaseDue, on2]
    simp only [Bool.not_false, granted_both given]
    rfl

end Sys2Proof.Machine
end

section
namespace Sys2Proof.Machine

/-! ## What the events of a port's call leave (R82 to R90, R99)

Every operation of a call moves port records, slots, the overhead channel, counts and notices. -/

/-- An on-hook brings the port to IDLE (R87, R88, R90): it is not RINGING, TESTING or DISABLED. -/
def PortRec.hangsUp (r : PortRec) : Prop := r.state ≠ .ringing ∧ r.state ≠ .testing ∧ r.state ≠ .disabled

/-- The loop as it is sensed and timed is the same in `t` as in `r`, no break has begun, and the port still hangs up if it did. -/
structure PortRec.SameLoop (r t : PortRec) : Prop where
  loop : t.loop = r.loop
  timing : t.timing = r.timing
  noBreak : r.brk = none → t.brk = none
  hangsUp : r.hangsUp → t.hangsUp

theorem PortRec.SameLoop.refl (r : PortRec) : r.SameLoop r := ⟨rfl, rfl, id, id⟩

theorem PortRec.SameLoop.trans {r t u : PortRec} (h : r.SameLoop t) (k : t.SameLoop u) : r.SameLoop u :=
  ⟨k.loop.trans h.loop, k.timing.trans h.timing, k.noBreak ∘ h.noBreak, k.hangsUp ∘ h.hangsUp⟩

/-- A move to a state in which the port hangs up, the loop as it was. -/
theorem PortRec.SameLoop.moved {r t : PortRec} (loop : t.loop = r.loop) (timing : t.timing = r.timing)
    (brk : t.brk = r.brk) (hangsUp : t.hangsUp) : r.SameLoop t := ⟨loop, timing, fun h => brk.trans h, fun _ => hangsUp⟩

/-- Both loops are as they were. -/
def LoopsKept (s t : State) : Prop := ∀ p, (s.port p).SameLoop (t.port p)

theorem LoopsKept.of_handset {s t : State} (h : t.handset = s.handset) : LoopsKept s t := by
  intro p
  have same : t.port p = s.port p := by cases p <;> simp only [State.port, h]
  rw [same]
  exact .refl _

theorem LoopsKept.trans {s t u : State} (h : LoopsKept s t) (k : LoopsKept t u) : LoopsKept s u :=
  fun p => (h p).trans (k p)

theorem LoopsKept.onPort (p : Port) {f : PortRec → PortRec} {s : State} (h : (s.port p).SameLoop (f (s.port p))) :
    LoopsKept s (onPort p f s) := by
  intro q
  cases p <;> cases q
  · exact h
  · exact .refl _
  · exact .refl _
  · exact h

/-- From `s` to `t` a call has moved: what is beyond the reach of the ports is as it was, and so are the loops. -/
structure CallMoved (s t : State) : Prop where
  beyond : t.beyond = s.beyond
  loops : LoopsKept s t

theorem CallMoved.same {s t : State} (beyond : t.beyond = s.beyond) (handset : t.handset = s.handset) : CallMoved s t :=
  ⟨beyond, .of_handset handset⟩

theorem CallMoved.refl (s : State) : CallMoved s s := .same rfl rfl

theorem CallMoved.trans {s t u : State} (h : CallMoved s t) (k : CallMoved t u) : CallMoved s u :=
  ⟨k.beyond.trans h.beyond, h.loops.trans k.loops⟩

theorem CallMoved.after {s t u : State} (k : CallMoved t u) (beyond : t.beyond = s.beyond) (handset : t.handset = s.handset) :
    CallMoved s u := (CallMoved.same beyond handset).trans k

theorem onPort_beyond (p : Port) (f : PortRec → PortRec) (s : State) : (onPort p f s).beyond = s.beyond := by
  cases p <;> rfl

theorem CallMoved.onPort (p : Port) {f : PortRec → PortRec} {s : State} (h : (s.port p).SameLoop (f (s.port p))) :
    CallMoved s (onPort p f s) := ⟨onPort_beyond p f s, .onPort p h⟩

theorem onSlot_moved (k : Slot) (f : SlotRec → SlotRec) (s : State) : CallMoved s (onSlot k f s) := by
  obtain ⟨x, e⟩ := onSlot_frame k f s
  rw [e]
  exact .same rfl rfl

theorem offer_moved (m : Msg) (s : State) : CallMoved s (offer m s) := by
  obtain ⟨o, n, g, e⟩ := offer_frame m s
  rw [e]
  exact .same rfl rfl

@[simp] theorem offer_port (m : Msg) (s : State) (p : Port) : (offer m s).port p = s.port p := by
  obtain ⟨o, n, g, e⟩ := offer_frame m s
  rw [e]
  cases p <;> rfl

theorem count_moved (c : Counter) (s : State) : CallMoved s (count c s) := by
  obtain ⟨p, a, n, e⟩ := count_frame c s
  rw [e]
  exact .same rfl rfl

theorem releaseWith_moved (k : Slot) (why : ReleaseReason) (s : State) : CallMoved s (releaseWith k why s) := by
  obtain ⟨x, o, n, g, e⟩ := releaseWith_frame k why s
  rw [e]
  exact .same rfl rfl

theorem takeWake_moved (why : WakeReason) (s : State) : CallMoved s (takeWake why s) := by
  obtain ⟨r, n, e⟩ := takeWake_frame why s
  rw [e]
  exact .same rfl rfl

theorem PortRec.toIdle_sameLoop (r : PortRec) : r.SameLoop r.toIdle :=
  .moved rfl rfl rfl (by simp [PortRec.hangsUp, PortRec.toIdle])

theorem grant_moved (use : SlotUse) (party : SlotParty) (order : Option Nat) (s : State) :
    CallMoved s (grant use party order s) :=
  (onSlot_moved _ _ s).trans ((count_moved _ _).after rfl rfl)

theorem admitPort_moved (p : Port) (s : State) : CallMoved s (admitPort p s) := by
  unfold admitPort
  split
  · refine (grant_moved _ _ _ s).trans (CallMoved.trans (.onPort p ?_) (offer_moved _ _))
    exact .moved rfl rfl rfl (by simp [PortRec.hangsUp])
  · refine (count_moved _ s).trans (.onPort p ?_)
    exact .moved rfl rfl rfl (by simp [PortRec.hangsUp, PortRec.toRefused])

theorem requestCall_moved (p : Port) (s : State) : CallMoved s (requestCall p s) := by
  unfold requestCall
  split
  · exact .onPort p (.moved rfl rfl rfl (by simp [PortRec.hangsUp]))
  · exact admitPort_moved p s

theorem reportPortWake_moved (p : Port) (s : State) : CallMoved s (reportPortWake p s) := by
  unfold reportPortWake
  dsimp only
  split
  · have marked : CallMoved s (onPort p (fun r => { r with wakeMark := true }) s) := .onPort p ⟨rfl, rfl, id, id⟩
    split
    · exact marked.trans (takeWake_moved _ _)
    · exact marked
  · exact .refl s

theorem offHookInIdle_moved (p : Port) (s : State) : CallMoved s (offHookInIdle p s) := by
  unfold offHookInIdle
  split
  · exact requestCall_moved p s
  · refine CallMoved.trans (.onPort p ?_) (reportPortWake_moved p _)
    exact .moved rfl rfl rfl (by simp [PortRec.hangsUp, PortRec.toNoService])

theorem idleThenLoop_moved (p : Port) (s : State) : CallMoved s (idleThenLoop p s) := by
  have idle : CallMoved s (onPort p PortRec.toIdle s) := .onPort p (PortRec.toIdle_sameLoop _)
  unfold idleThenLoop
  dsimp only
  split
  · exact idle.trans (offHookInIdle_moved p _)
  · exact idle

theorem portOnHook_moved (p : Port) (s : State) : CallMoved s (portOnHook p s) := by
  have idle (t : State) : CallMoved t (onPort p PortRec.toIdle t) := .onPort p (PortRec.toIdle_sameLoop _)
  unfold portOnHook
  dsimp only
  split
  case h_1 | h_2 | h_3 => exact .refl s
  case h_4 | h_5 =>
    split
    · exact (releaseWith_moved _ _ s).trans (idle _)
    · exact idle s
  case h_6 | h_7 | h_8 | h_9 => exact idle s

/-- Where a port hangs up, an on-hook brings it to IDLE (R87, R88, R90). -/
theorem portOnHook_idle {p : Port} {s : State} (h : (s.port p).hangsUp) : ((portOnHook p s).port p).state = .idle := by
  obtain ⟨ringing, testing, disabled⟩ := h
  unfold portOnHook
  dsimp only
  split
  case h_1 | h_2 | h_3 => contradiction
  all_goals
    rw [onPort_port]
    rfl

theorem handItem_moved (p : Port) (x : DialItem) (s : State) : CallMoved s (handItem p x s) := by
  unfold handItem
  split
  · exact offer_moved _ s
  · refine .onPort p ?_
    split <;> exact ⟨rfl, rfl, id, id⟩
  · exact .refl s

/-- An item leaves the pulses and the make timer of its port as they are. -/
theorem handItem_pulses (p : Port) (x : DialItem) (s : State) : ((handItem p x s).port p).pulses = (s.port p).pulses ∧
    ((handItem p x s).port p).make = (s.port p).make := by
  unfold handItem
  split
  · rw [offer_port]
    exact ⟨rfl, rfl⟩
  · rw [onPort_port]
    split <;> exact ⟨rfl, rfl⟩
  · exact ⟨rfl, rfl⟩

theorem completeDigit_moved (p : Port) (s : State) : CallMoved s (completeDigit p s) := by
  have stopped : CallMoved s (onPort p (fun r => { r with pulses := 0, make := none }) s) := .onPort p ⟨rfl, rfl, id, id⟩
  unfold completeDigit
  dsimp only
  split
  · exact stopped
  · split
    · exact stopped.trans (CallMoved.trans (.onPort p ⟨rfl, rfl, id, id⟩) (handItem_moved p _ _))
    · exact stopped.trans (.onPort p ⟨rfl, rfl, id, id⟩)

/-- A complete digit leaves no pulse to count (R83). -/
theorem completeDigit_pulses (p : Port) (s : State) : ((completeDigit p s).port p).pulses = 0 ∧
    ((completeDigit p s).port p).make = none := by
  unfold completeDigit
  dsimp only
  split
  · rw [onPort_port]
    exact ⟨rfl, rfl⟩
  · split
    · obtain ⟨pulses, make⟩ := handItem_pulses p (.digit ((s.port p).pulses % 10))
        (onPort p (fun r => { r with lastDigit := some ((s.port p).pulses % 10) })
          (onPort p (fun r => { r with pulses := 0, make := none }) s))
      rw [pulses, make, onPort_port, onPort_port]
      exact ⟨rfl, rfl⟩
    · rw [onPort_port, onPort_port]
      exact ⟨rfl, rfl⟩

theorem completeIfAny_moved (p : Port) (s : State) : CallMoved s (completeIfAny p s) := by
  unfold completeIfAny
  split
  · exact completeDigit_moved p s
  · exact .refl s

theorem ringTrip_moved (p : Port) (s : State) : CallMoved s (ringTrip p s) := by
  unfold ringTrip
  dsimp only
  split
  · rename_i k order _ _
    split
    · exact .refl s
    · have active : CallMoved s (onSlot k (fun x => { x with
          state := .active, party := .port p, last := some (Config.idleCode, Config.idleCode), concealed := 0 }) s) :=
        onSlot_moved _ _ s
      have connected (t : State) : CallMoved t
          (onPort p (fun x => { x.settled with state := .connected, slot := some k }) t) :=
        .onPort p (.moved rfl rfl rfl (by simp [PortRec.hangsUp]))
      split
      · exact active.trans ((connected _).trans (CallMoved.trans (.onPort _ (PortRec.toIdle_sameLoop _)) (offer_moved _ _)))
      · exact active.trans ((connected _).trans (offer_moved _ _))
  · exact .refl s

theorem handOffHook_moved (p : Port) (s : State) : CallMoved s (handOffHook p s) := by
  unfold handOffHook
  split
  · exact offHookInIdle_moved p s
  · exact ringTrip_moved p s
  · exact .refl s

/-! ## What the entry to DORMANT leaves of the loops (R184) -/

theorem raise_loops (cls : NoticeClass) (sev : Severity) (code : NoticeCode) (ps : List Int) (s : State) :
    LoopsKept s (raise cls sev code ps s) := by
  obtain ⟨a, n, e⟩ := raise_frame cls sev code ps s
  rw [e]
  exact .of_handset rfl

theorem PortRec.lineLost_sameLoop (r : PortRec) : r.SameLoop r.lineLost := by
  unfold PortRec.lineLost
  split
  · exact .moved rfl rfl rfl (by simp [PortRec.hangsUp, PortRec.toNoService])
  · exact .moved rfl rfl rfl (by simp [PortRec.hangsUp, PortRec.toNoService])
  · exact .moved rfl rfl rfl (by simp [PortRec.hangsUp, PortRec.toNoService])
  · exact .moved rfl rfl rfl (by simp [PortRec.hangsUp, PortRec.toIdle])
  · exact .refl r

theorem leaveServiceTo_loops (why : LossReason) (next : LineState) (s : State) :
    LoopsKept s (leaveServiceTo why next s) := by
  obtain ⟨p, a, n, o, g, e⟩ := beforeLoss_frame why s
  rw [leaveServiceTo_eq, e]
  intro q
  cases q <;> exact PortRec.lineLost_sameLoop _

theorem abortClaim_loops (c : Claim) (s : State) : LoopsKept s (abortClaim c s) := by
  obtain ⟨a, e⟩ := abortClaim_eq c s
  rw [e]
  exact .of_handset rfl

theorem abortLineTest_loops (s : State) : LoopsKept s (abortLineTest s) := by
  unfold abortLineTest
  split
  · split
    · exact abortClaim_loops _ s
    · exact .of_handset rfl
  · exact .of_handset rfl

theorem lineToOff_loops (why : LossReason) (s : State) : LoopsKept s (lineToOff why s) := by
  unfold lineToOff
  split
  · exact leaveServiceTo_loops why .off s
  · exact .of_handset rfl
  · have ended : LoopsKept s (endAttempt s) := .of_handset rfl
    exact (ended.trans (abortLineTest_loops _)).trans (.of_handset rfl)

theorem dropUnit_loops (n : Nat) (p : Port) (s : State) :
    LoopsKept s (if n < unitsHeld s ∧ (s.port p).unitHeld then
      onPort p (fun r => { r with unitHeld := false, skipped := true }) s else s) := by
  split
  · exact .onPort p ⟨rfl, rfl, id, id⟩
  · exact .of_handset rfl

theorem setAllowance_loops (n : Nat) (s : State) : LoopsKept s (setAllowance n s) := by
  have allowed : LoopsKept s { s with handset.allowance := n } := fun p => by cases p <;> exact .refl _
  exact allowed.trans ((dropUnit_loops n .p2 _).trans (dropUnit_loops n .p1 _))

theorem giveLineBack_handset (c : Claim) (s : State) : (giveLineBack c s).handset = s.handset := by
  unfold giveLineBack
  split
  · split <;> rfl
  · rfl
  · rfl
  · rfl
  · rfl

theorem abortTest_loops (s : State) : LoopsKept s (abortTest s) := by
  unfold abortTest
  split
  · rename_i c _
    refine (abortClaim_loops c s).trans (LoopsKept.trans (.of_handset (giveLineBack_handset c _)) ?_)
    unfold givePortBack
    split
    · exact (idleThenLoop_moved _ _).loops
    · exact .of_handset rfl
  · exact .of_handset rfl

theorem enterDormant_loops (s : State) : LoopsKept s (enterDormant s) := by
  have moved := (lineToOff_loops .dormant { s with supply := s.supply.asleep }).trans
    ((setAllowance_loops 0 _).trans (abortTest_loops _))
  rw [enterDormant_eq]
  generalize abortTest (setAllowance 0 (lineToOff .dormant { s with supply := s.supply.asleep })) = t at moved ⊢
  obtain ⟨a, n, aborted⟩ := abortErase_frame t
  obtain ⟨d, emptied, -⟩ := emptyQueues_frame { t with archive := a, notices := n }
  obtain ⟨r, k, woken⟩ := wakeIfReturning_frame { t with archive := a, notices := n, data := d, framer.up := .boundary }
  rw [aborted, emptied, woken]
  exact LoopsKept.trans moved (.of_handset rfl)

theorem powerLossCheck_loops (s : State) : LoopsKept s (powerLossCheck s) := by
  unfold powerLossCheck
  split
  · split
    · exact enterDormant_loops s
    · exact .of_handset rfl
  · exact .of_handset rfl

theorem PortRec.tick_sameLoop (r : PortRec) : r.SameLoop r.tick :=
  ⟨rfl, rfl, fun h => by simp [PortRec.tick, tickUp, h], id⟩

theorem halfTicked_loops (s : State) : LoopsKept s (halfTicked s) := by
  unfold halfTicked
  dsimp only
  split
  · exact .of_handset rfl
  · intro p
    cases p <;> exact PortRec.tick_sameLoop _

/-- The local timebase moves no loop (log entry 3). -/
theorem advance_loops (n : Nat) (s : State) : LoopsKept s (advance n s) := by
  induction n generalizing s with
  | zero => exact .of_handset rfl
  | succ n ih => exact ((halfTicked_loops s).trans (powerLossCheck_loops _)).trans (ih _)

theorem advanceMs_loops (n : Nat) (s : State) : LoopsKept s (advanceMs n s) := advance_loops _ s

theorem advanceTo_loops (n : Nat) (s : State) : LoopsKept s (advanceTo n s) := advance_loops _ s

end Sys2Proof.Machine
end

section
namespace Sys2Proof.Machine

/-! ## The loop timers (R81, R82, R83) -/

section
variable {p : Port} {s : State} (hs : s.powered = true)
include hs

theorem exec_loopSenseChange (closed : Bool) (elapsed : Nat) : exec (.loopSenseChange p closed elapsed) s =
    .next (onPort p (PortRec.sense closed) (advanceMs elapsed s)) :=
  exec_of_run (f := fun s => onPort p (PortRec.sense closed) (advanceMs elapsed s)) hs rfl

theorem exec_debounceExpiry (differs : (s.port p).closed ≠ (s.port p).level) : exec (.debounceExpiry p) s =
    .next (confirmLoop p (advanceTo (20 - (s.port p).debounce.getD 0) s)) :=
  exec_of_due (f := fun s => confirmLoop p (advanceTo (20 - (s.port p).debounce.getD 0) s)) hs rfl (by simpa using differs)

theorem exec_breakPulseLimitPassed (brk : (s.port p).loop = .brk) (dialled : 0 < (s.port p).pulses) :
    exec (.breakPulseLimitPassed p) s =
      .next (completeDigit p (advanceTo ((s.port p).breakPulse + 1 - (s.port p).brk.getD 0) s)) :=
  exec_of_due (f := fun s => completeDigit p (advanceTo ((s.port p).breakPulse + 1 - (s.port p).brk.getD 0) s)) hs rfl
    (by simp [brk, dialled])

theorem exec_breakTimerExpiry (brk : (s.port p).loop = .brk) : exec (.breakTimerExpiry p) s =
    .next (goOnHook p (advanceTo ((s.port p).breakFlash + 1 - (s.port p).brk.getD 0) s)) :=
  exec_of_due (f := fun s => goOnHook p (advanceTo ((s.port p).breakFlash + 1 - (s.port p).brk.getD 0) s)) hs rfl
    (by simp [brk])

theorem exec_makeTimerExpiry (make : (s.port p).make.isSome = true) : exec (.makeTimerExpiry p) s =
    .next (completeDigit p (advanceTo ((s.port p).makeLimit - (s.port p).make.getD 0) s)) :=
  exec_of_due (f := fun s => completeDigit p (advanceTo ((s.port p).makeLimit - (s.port p).make.getD 0) s)) hs rfl make

end

theorem CallMoved.loop {s t : State} (h : CallMoved s t) (p : Port) : (t.port p).loop = (s.port p).loop := (h.loops p).loop

/-- The on-hook of a break: the loop is ON_HOOK, and a port that hangs up is IDLE (R82). -/
theorem goOnHook_port (p : Port) (s : State) : ((goOnHook p s).port p).loop = .onHook ∧
    ((goOnHook p s).port p).brk = none ∧ ((s.port p).hangsUp → ((goOnHook p s).port p).state = .idle) := by
  have kept := (portOnHook_moved p (onPort p (fun r => { r with loop := .onHook, brk := none }) (completeIfAny p s))).loops p
  refine ⟨kept.loop.trans ?_, kept.noBreak ?_, fun hangsUp => portOnHook_idle ?_⟩
  · rw [onPort_port]
  · rw [onPort_port]
  · rw [onPort_port]
    exact ((completeIfAny_moved p s).loops p).hangsUp hangsUp

theorem goOnHook_beyond (p : Port) (s : State) : (goOnHook p s).beyond = s.beyond :=
  (portOnHook_moved p _).beyond.trans ((onPort_beyond _ _ _).trans (completeIfAny_moved p s).beyond)

theorem takeFlash_moved (p : Port) (s : State) : CallMoved s (takeFlash p s) :=
  (completeIfAny_moved p s).trans (handItem_moved p .flash _)

theorem PortRec.pulse_sameLoop (r : PortRec) : r.SameLoop r.pulse := by
  unfold PortRec.pulse
  split
  · exact ⟨rfl, rfl, id, id⟩
  · exact .refl r

/-- A break that ends leaves the loop OFF_HOOK, whatever it was: a pulse, a flash, or an on-hook and a new off-hook (R82). -/
theorem breakEnds_port (p : Port) (s : State) :
    ((breakEnds p s).port p).loop = .offHook ∧ ((breakEnds p s).port p).brk = none := by
  have after {u v : State} (kept : LoopsKept u v) (loop : (u.port p).loop = .offHook) (brk : (u.port p).brk = none) :
      (v.port p).loop = .offHook ∧ (v.port p).brk = none := ⟨(kept p).loop.trans loop, (kept p).noBreak brk⟩
  obtain ⟨-, noBreak, -⟩ := goOnHook_port p s
  unfold breakEnds
  dsimp only
  split
  · exact after (.onPort p (PortRec.pulse_sameLoop _)) (by rw [onPort_port]) (by rw [onPort_port])
  · split
    · exact after (takeFlash_moved p _).loops (by rw [onPort_port]) (by rw [onPort_port])
    · exact after (handOffHook_moved p _).loops (by rw [onPort_port]) (by rw [onPort_port]; exact noBreak)

theorem breakEnds_beyond (p : Port) (s : State) : (breakEnds p s).beyond = s.beyond := by
  unfold breakEnds
  dsimp only
  split
  · rw [onPort_beyond, onPort_beyond]
  · split
    · exact (takeFlash_moved p _).beyond.trans (onPort_beyond _ _ _)
    · exact (handOffHook_moved p _).beyond.trans ((onPort_beyond _ _ _).trans (goOnHook_beyond p s))

/-- An open loop closes (R81). -/
theorem confirmLoop_onHook {p : Port} {s : State} (h : (s.port p).loop = .onHook) :
    ((confirmLoop p s).port p).loop = .offHook := by
  unfold confirmLoop
  rw [h]
  refine ((handOffHook_moved p _).loop p).trans ?_
  rw [onPort_port]

theorem confirmLoop_offHook {p : Port} {s : State} (h : (s.port p).loop = .offHook) :
    confirmLoop p s = onPort p PortRec.startBreak s := by
  unfold confirmLoop
  rw [h]

theorem confirmLoop_brk {p : Port} {s : State} (h : (s.port p).loop = .brk) : confirmLoop p s = breakEnds p s := by
  unfold confirmLoop
  rw [h]

theorem confirmLoop_beyond (p : Port) (s : State) : (confirmLoop p s).beyond = s.beyond := by
  unfold confirmLoop
  split
  · exact (handOffHook_moved p _).beyond.trans (onPort_beyond _ _ _)
  · exact onPort_beyond _ _ _
  · exact breakEnds_beyond p s

/-- Settles O43: the local timebase moves no loop, so the loop that the timer's end confirms is the one it started from. -/
theorem loopIsDebounced : Obligations.LoopIsDebounced := by
  unfold Obligations.LoopIsDebounced
  intro p s hs
  refine ⟨fun closed elapsed => ?_, fun onHook closed => ?_, fun offHook opened => ?_, fun brk closed => ?_⟩
  · have level : ((advanceMs elapsed s).port p).level = ((s.port p).loop == .offHook) := by
      rw [PortRec.level, (advanceMs_loops elapsed s p).loop]
    refine ⟨_, exec_loopSenseChange hs closed elapsed, ?_⟩
    dsimp only
    rw [onPort_port, PortRec.sense, level]
    simp
  · refine ⟨_, exec_debounceExpiry hs (by simp [closed, PortRec.level, onHook]), confirmLoop_onHook ?_⟩
    exact (advanceTo_loops _ s p).loop.trans onHook
  · obtain ⟨loop, timing, -, -⟩ := advanceTo_loops (20 - (s.port p).debounce.getD 0) s p
    refine ⟨_, exec_debounceExpiry hs (by simp [opened, PortRec.level, offHook]), ?_⟩
    dsimp only
    rw [confirmLoop_offHook (loop.trans offHook), onPort_port, ← timing]
    exact ⟨rfl, rfl, rfl, rfl, rfl⟩
  · refine ⟨_, exec_debounceExpiry hs (by simp [closed, PortRec.level, brk]), ?_⟩
    rw [confirmLoop_brk ((advanceTo_loops _ s p).loop.trans brk)]
    exact breakEnds_port p _

/-- An event that changes nothing beyond the ports' reach, whether it has arisen or not. -/
theorem beyond_of_due {c : Instr} {s t : State} {due : Bool} {f : State → State} (h : exec c s = run (whenDue due f) s)
    (kept : (f s).beyond = s.beyond) (next : exec c s = .next t) : t.beyond = s.beyond := by
  rw [h] at next
  cases next
  split
  · cases due
    · rfl
    · exact kept
  · rfl

/-- Settles O44: what completes the digit, and the on-hook, act on the loop as the local timebase has left it. -/
theorem digitsAndBreaksEnd : Obligations.DigitsAndBreaksEnd := by
  unfold Obligations.DigitsAndBreaksEnd
  intro p s hs
  refine ⟨fun brk dialled => ?_, fun make => ?_, fun brk states => ?_, fun hold t timer => ?_⟩
  · refine ⟨_, exec_breakPulseLimitPassed hs brk dialled, (completeDigit_pulses p _).1, ?_⟩
    rw [(completeDigit_moved p _).loop, (advanceTo_loops _ s p).loop, brk]
  · exact ⟨_, exec_makeTimerExpiry hs make, completeDigit_pulses p _⟩
  · obtain ⟨loop, noBreak, idle⟩ :=
      goOnHook_port p (advanceTo ((s.port p).breakFlash + 1 - (s.port p).brk.getD 0) s)
    refine ⟨_, exec_breakTimerExpiry hs brk, loop, noBreak, idle ((advanceTo_loops _ s p).hangsUp ?_)⟩
    rcases states with h | h | h | h | h <;> simp [PortRec.hangsUp, h]
  · have still (n : Nat) : (advanceTo n s).beyond = s.beyond := (advance_noHold _ hold).1
    have beyond : t.beyond = s.beyond := by
      rcases timer with next | next | next | next
      · exact beyond_of_due (f := fun s => completeDigit p (advanceTo _ s)) rfl
          ((completeDigit_moved p _).beyond.trans (still _)) next
      · exact beyond_of_due (f := fun s => completeDigit p (advanceTo _ s)) rfl
          ((completeDigit_moved p _).beyond.trans (still _)) next
      · exact beyond_of_due (f := fun s => goOnHook p (advanceTo _ s)) rfl ((goOnHook_beyond p _).trans (still _)) next
      · exact beyond_of_due (f := fun s => confirmLoop p (advanceTo _ s)) rfl ((confirmLoop_beyond p _).trans (still _)) next
    simp only [State.beyond, Prod.mk.injEq] at beyond
    obtain ⟨tones, loader, line, shifts, impulse, framer, data, tester, time⟩ := beyond
    exact ⟨tones, loader, line, shifts, impulse, framer, data, tester, Time.eq_of_halfMs time⟩

end Sys2Proof.Machine
end

section
namespace Sys2Proof.Machine

/-! ## Digits (R83, R84) -/

/-- A digit of a CONNECTED port is sent (R84). -/
theorem handItem_connected {p : Port} {s : State} (d : Nat) (h : (s.port p).state = .connected) :
    handItem p (.digit d) s = offer (.digit p d) s := by
  simp [handItem, h]

/-- A digit or flash of a SEIZING port is buffered while there is room (R84). -/
theorem handItem_seizing {p : Port} {s : State} (x : DialItem) (h : (s.port p).state = .seizing)
    (room : (s.port p).digits.length < 16) :
    handItem p x s = s.setPort p { s.port p with digits := (s.port p).digits ++ [x] } := by
  simp [handItem, h, onPort, room]

/-- One to ten pulses are a digit, handed to the port state (R83). -/
theorem completeDigit_digit {p : Port} {s : State} (one : 1 ≤ (s.port p).pulses) (ten : (s.port p).pulses ≤ 10) :
    completeDigit p s = handItem p (.digit ((s.port p).pulses % 10)) (s.setPort p { s.port p with
      pulses := 0, make := none, lastDigit := some ((s.port p).pulses % 10) }) := by
  have dialled : (s.port p).pulses ≠ 0 := by omega
  simp only [completeDigit, if_neg dialled, if_pos ten, onPort, State.setPort_port, State.setPort_setPort]

/-- More pulses are an error (R83). -/
theorem completeDigit_error {p : Port} {s : State} (more : 10 < (s.port p).pulses) :
    completeDigit p s = s.setPort p { s.port p with
      pulses := 0, make := none, dialErrors := satInc 255 (s.port p).dialErrors } := by
  have dialled : (s.port p).pulses ≠ 0 := by omega
  have many : ¬ (s.port p).pulses ≤ 10 := by omega
  simp only [completeDigit, if_neg dialled, if_neg many, onPort, State.setPort_port, State.setPort_setPort]

/-- Settles O45: by the number of pulses, and by what the port state does with the digit. -/
theorem pulsesMakeDigits : Obligations.PulsesMakeDigits := by
  unfold Obligations.PulsesMakeDigits
  intro p s
  refine ⟨fun one ten seizing room => ?_, fun one ten connected => ?_, fun more => completeDigit_error more⟩
  · rw [completeDigit_digit one ten, handItem_seizing _ (by rw [State.setPort_port]; exact seizing)
      (by rw [State.setPort_port]; exact room), State.setPort_port, State.setPort_setPort]
  · rw [completeDigit_digit one ten, handItem_connected _ (by rw [State.setPort_port]; exact connected)]

/-! ## Tones, on-phases and ring limits (R90, R94, R98) -/

theorem exec_toneTimerExpiry {p : Port} {s : State} (hs : s.powered = true)
    (tone : (s.port p).state = .refused ∨ (s.port p).state = .noService) (timer : (s.port p).toneTimer = some 0) :
    exec (.toneTimerExpiry p) s = .next (onPort p PortRec.toSilent s) :=
  exec_of_due hs rfl (by rcases tone with h | h <;> simp [PortRec.toneOver, h, timer])

/-- An on-phase of port 1 ends, its unit returned, where port 2 does not ring (R94). -/
theorem endPhases_ends {s : State} {c : Cadence} (ended : s.handset.p1.PhaseOver c) (on : c.on = true)
    (silent : s.handset.p2.state ≠ .ringing) :
    endPhases s = { s with handset.p1 := { s.handset.p1 with cadence := some c.advance, unitHeld := false } } := by
  have phase1 := ended.nextPhase
  rw [on] at phase1
  have none1 : s.handset.p1.onPhaseDue = false := by simp [ended.onPhaseDue, on]
  have none2 := PortRec.onPhaseDue_silent silent
  have phase2 := PortRec.nextPhase_silent silent
  simp [endPhases, grantUnits, none1, none2, onPorts, onPort, State.port, State.setPort, phase1, phase2]

theorem orderSlot_first {s : State} {order : Nat} (reserved : s.slots.s0.state = .reserved)
    (held : s.slots.s0.released = false) (use : s.slots.s0.use = some .ring) (ordered : s.slots.s0.order = some order) :
    orderSlot s order = some .s0 := by
  simp [orderSlot, SlotRec.live, SlotRec.isFree, reserved, held, use, ordered]

theorem exec_ringTimerExpiry {s : State} {order : Nat} {k : Slot} (hs : s.powered = true)
    (ended : s.handset.p1.ringOver order = true) (slot : orderSlot s order = some k) :
    exec (.ringTimerExpiry order) s = .next (endUnanswered order k s) := by
  change execRingTimerExpiry order s = _
  simp [execRingTimerExpiry, hs, ended, slot]

theorem endRinging_own {k : Slot} {r : PortRec} (ringing : r.state = .ringing) (slot : r.slot = some k) :
    endRinging k r = { r.toIdle with skipped := false } := if_pos ⟨ringing, slot⟩

theorem endRinging_silent {k : Slot} {r : PortRec} (silent : r.state ≠ .ringing) : endRinging k r = r :=
  if_neg fun h => silent h.1

/-- An order that rings port 1 alone ends: the port is IDLE and the slot released (R98). -/
theorem endOrder_alone {s : State} {k : Slot} (ringing : s.handset.p1.state = .ringing) (slot : s.handset.p1.slot = some k)
    (silent : s.handset.p2.state ≠ .ringing) : endOrder k s =
      markReleased k { s with handset.p1 := { s.handset.p1.toIdle with skipped := false } } := by
  simp [endOrder, onPorts, onPort, State.port, State.setPort, endRinging_own ringing slot, endRinging_silent silent]

/-- Settles O46: a tone, an on-phase and a ring limit each end in their own operation. -/
theorem tonesAndRingsEnd : Obligations.TonesAndRingsEnd := by
  unfold Obligations.TonesAndRingsEnd
  intro s hs
  refine ⟨fun p tone timer => exec_toneTimerExpiry hs tone timer, fun c ringing cadence on timer silent => ?_,
    fun order service ringing ordered timer slot reserved held use owned silent room line signal => ?_⟩
  · have ended : s.handset.p1.PhaseOver c := ⟨ringing, cadence, timer⟩
    rw [exec_cadencePhaseEnd hs ended, endPhases_ends ended on silent, Cadence.advance_on on]
  · have limit : s.handset.p1.ringOver order = true := by simp [PortRec.ringOver, ringing, ordered, timer]
    rw [exec_ringTimerExpiry hs limit (orderSlot_first reserved held use owned), endUnanswered,
      offer_room _ s service room line signal,
      endOrder_alone (s := { s with overhead := insertMsg (.noAnswer order) s.overhead }) ringing slot silent]
    rfl

end Sys2Proof.Machine
end

section
namespace Sys2Proof.Machine

/-! ## The events of the voice slots (R109 to R113) -/

section
variable {s : State} (hs : s.powered = true) (service : s.line.state = .service)
include hs service

theorem exec_seizeAck (k : Slot) : exec (.seizeAck k) s = .next (takeSeizeAck k s) :=
  exec_of_due hs rfl (by simp [service])

theorem exec_seizeNak (k : Slot) : exec (.seizeNak k) s = .next (takeSeizeNak k s) :=
  exec_of_due hs rfl (by simp [service])

theorem exec_release (k : Slot) (reason : Nat) : exec (.release k reason) s = .next (takeRelease k reason s) :=
  exec_of_due hs rfl (by simp [service])

theorem exec_ring (ports : PortSet) (cadence order : Nat) :
    exec (.ring ports cadence order) s = .next (takeRing ports cadence order s) :=
  exec_of_due hs rfl (by simp [service])

theorem exec_ringStop (order : Nat) : exec (.ringStop order) s = .next (takeRingStop order s) :=
  exec_of_due hs rfl (by simp [service])

end

theorem exec_seizureWaitExpiry {k : Slot} {s : State} (hs : s.powered = true) (live : (s.slot k).live = true)
    (seizing : (s.slot k).seizing = true) (ended : (s.slot k).wait = some 0) :
    exec (.seizureWaitExpiry k) s = .next (seizureTimesOut k s) :=
  exec_of_due hs rfl (by simp [live, seizing, ended])

/-! ## The answers to SEIZE and the end of the seizure wait (R109, R110, R113) -/

theorem SlotRec.live_of_used {r : SlotRec} (used : r.state ≠ .free) (held : r.released = false) : r.live = true := by
  simp [SlotRec.live, SlotRec.isFree, used, held]

theorem SlotRec.port?_of_party {r : SlotRec} {p : Port} (party : r.party = .port p) : r.port? = some p := by
  simp [SlotRec.port?, party]

theorem refuseParty_port {k : Slot} {p : Port} {s : State} (why : Refused) (party : (s.slot k).port? = some p) :
    refuseParty k why s = onPort p (PortRec.toRefused why) s := by
  simp [refuseParty, party]

/-- A slot that one port uses is released and its port refused, and nothing is sent (R88, R113). -/
theorem refuseParty_markReleased {k : Slot} {p : Port} {s : State} (why : Refused) (party : (s.slot k).party = .port p) :
    refuseParty k why (markReleased k s) = (s.setSlot k { s.slot k with released := true, wait := none }).setPort p
      { (s.port p).settled with state := .refused, refusal := some why, toneTimer := some 6000 } := by
  have user : ((markReleased k s).slot k).port? = some p := SlotRec.port?_of_party (by simpa [markReleased] using party)
  rw [refuseParty_port why user, onPort, markReleased, onSlot, State.setSlot_port]
  rfl

/-- An answer that comes while stale answers are due is one of them, whichever it is (R110). -/
theorem takeSeizeAnswer_stale {k : Slot} {s : State} (stale : 0 < (s.slot k).stale) :
    takeSeizeAck k s = dropStale k s ∧ takeSeizeNak k s = dropStale k s := ⟨if_pos stale, if_pos stale⟩

/-- A port with no digits buffered is CONNECTED without a message (R84, R87). -/
theorem connectPort_noDigits {p : Port} {s : State} (noDigits : (s.port p).digits = []) :
    connectPort p s = s.setPort p { s.port p with state := .connected } := by
  have connected : connectPort p s = s.setPort p { s.port p with state := .connected, digits := [] } := by
    simp only [connectPort, noDigits, sendDigits, onPort]
  rw [connected, ← noDigits]

section
variable {k : Slot} {s : State} (fresh : (s.slot k).stale = 0) (live : (s.slot k).live = true)
  (seizing : (s.slot k).seizing = true)
include fresh live seizing

theorem takeSeizeAck_due {p : Port} (party : (s.slot k).party = .port p) :
    takeSeizeAck k s = connectPort p (onSlot k SlotRec.activated s) := by
  simp [takeSeizeAck, fresh, live, seizing, SlotRec.port?_of_party party]

theorem takeSeizeNak_due : takeSeizeNak k s = refuseParty k .exchange (markReleased k s) := by
  simp [takeSeizeNak, fresh, live, seizing]

end

@[simp] theorem offer_slot (m : Msg) (s : State) (k : Slot) : (offer m s).slot k = s.slot k := by
  obtain ⟨o, n, g, e⟩ := offer_frame m s
  rw [e]
  cases k <;> rfl

@[simp] theorem withdraw_slot (p : Msg → Bool) (s : State) (k : Slot) : (withdraw p s).slot k = s.slot k := by
  cases k <;> rfl

@[simp] theorem releaseWith_port (k : Slot) (why : ReleaseReason) (s : State) (p : Port) :
    (releaseWith k why s).port p = s.port p := by
  obtain ⟨x, o, n, g, e⟩ := releaseWith_frame k why s
  rw [e]
  cases p <;> rfl

/-- Whatever a release sends or takes back, it marks its slot, leaves the slot with its user, and leaves the other slot. -/
theorem releaseWith_slots {k : Slot} {s : State} (why : ReleaseReason) (live : (s.slot k).live = true) :
    ((releaseWith k why s).slot k).released = true ∧ ((releaseWith k why s).slot k).party = (s.slot k).party ∧
      (releaseWith k why s).slot (otherSlot k) = s.slot (otherSlot k) := by
  unfold releaseWith
  dsimp only
  rw [if_neg (by simp [live])]
  split
  · split <;> simp [markReleased]
  · simp [markReleased]

/-- The end of the seizure wait releases the slot and refuses its port; the other slot and the other port stay (R109). -/
theorem seizureTimesOut_effect {k : Slot} {p : Port} {s : State} (live : (s.slot k).live = true)
    (party : (s.slot k).party = .port p) :
    ((seizureTimesOut k s).slot k).released = true ∧ (seizureTimesOut k s).port p = (s.port p).toRefused .timeout ∧
      (seizureTimesOut k s).slot (otherSlot k) = s.slot (otherSlot k) ∧
      (seizureTimesOut k s).port (otherPort p) = s.port (otherPort p) := by
  obtain ⟨released, user, other⟩ := releaseWith_slots .timeout live
  have refused : seizureTimesOut k s = (releaseWith k .timeout s).setPort p ((s.port p).toRefused .timeout) := by
    rw [seizureTimesOut, refuseParty_port _ (SlotRec.port?_of_party (user.trans party)), onPort, releaseWith_port]
  rw [refused]
  refine ⟨?_, State.setPort_port _ _ _, ?_, ?_⟩
  · rw [State.setPort_slot, released]
  · rw [State.setPort_slot, other]
  · rw [State.setPort_other, releaseWith_port]

/-- Settles O47: by what is due at the slot, a stale answer, the answer itself, or the end of the wait. -/
theorem seizureIsAnswered : Obligations.SeizureIsAnswered := by
  unfold Obligations.SeizureIsAnswered
  intro k p s hs service reserved use party held waits
  have seizing : (s.slot k).seizing = true := by simp [SlotRec.seizing, reserved, use, waits]
  have live := SlotRec.live_of_seizing seizing held
  refine ⟨fun fresh noDigits => ?_, fun fresh => ?_, fun stale => ?_, fun ended => ?_⟩
  · rw [exec_seizeAck hs service, takeSeizeAck_due fresh live seizing party, onSlot,
      connectPort_noDigits (by rw [State.setSlot_port]; exact noDigits), State.setSlot_port]
    rfl
  · rw [exec_seizeNak hs service, takeSeizeNak_due fresh live seizing, refuseParty_markReleased _ party]
  · obtain ⟨ack, nak⟩ := takeSeizeAnswer_stale stale
    rw [exec_seizeAck hs service, exec_seizeNak hs service, ack, nak]
    exact ⟨rfl, rfl⟩
  · obtain ⟨released, refused, otherSlot, otherPort⟩ := seizureTimesOut_effect live party
    refine ⟨_, exec_seizureWaitExpiry hs live seizing ended, released, ?_, ?_, otherSlot, otherPort⟩
    · rw [refused]
      rfl
    · rw [refused]
      rfl

end Sys2Proof.Machine
end

section
namespace Sys2Proof.Machine

/-! ## RELEASE, RING and RING_STOP (R105, R111 to R113) -/

/-- A RELEASE of a call that is no unanswered ring order releases the slot and refuses its port (R113). -/
theorem takeRelease_call {k : Slot} {s : State} (reason : Nat) (live : (s.slot k).live = true)
    (call : (s.slot k).use = some .outgoing ∨ (s.slot k).state = .active) :
    takeRelease k reason s = refuseParty k .cleared (markReleased k s) := by
  have answered : (s.slot k).ringing = false := by rcases call with h | h <;> simp [SlotRec.ringing, h]
  simp [takeRelease, live, answered]

theorem takeRingStop_ringing {k : Slot} {s : State} {order : Nat} (slot : orderSlot s order = some k)
    (ringing : (s.slot k).ringing = true) : takeRingStop order s = endOrder k s := by
  simp [takeRingStop, slot, ringing]

theorem portsFault_idle {s : State} (idle : s.handset.p1.state = .idle) : portsFault .one s = none := by
  simp [portsFault, PortSet.ports, State.port, idle]

/-- A RING that passes the checks of R111 is accepted. -/
theorem takeRing_accepted {ps : PortSet} {cadence order : Nat} {s : State} (entry : cadence ≤ 7)
    (unused : orderSlot s order = none) (free : portsFault ps s = none) (phase : s.shifts.rx.phase ≠ .pass)
    (room : admissible s = true) : takeRing ps cadence order s = acceptRing ps cadence order s := by
  have known : ¬ (7 < cadence ∨ (orderSlot s order).isSome) := by simp [unused, entry]
  simp only [takeRing, if_neg known, free, if_pos (And.intro phase room)]

/-- The abort of a test on a named port changes the Test Unit and, by TEST_RESULT, the archive and the Notice Unit (R175). -/
theorem abortNamedTest_frame (ps : PortSet) (s : State) :
    ∃ t a n, abortNamedTest ps s = { s with tester := t, archive := a, notices := n } := by
  have same : ∃ t a n, s = { s with tester := t, archive := a, notices := n } := ⟨s.tester, s.archive, s.notices, rfl⟩
  unfold abortNamedTest
  split
  · split
    · split
      · rename_i c _ _ _ _ _
        obtain ⟨a, e⟩ := abortClaim_eq c s
        exact ⟨_, a, _, e⟩
      · exact same
    · exact same
  · exact same

/-- An admission changes the granted slot, the mark and the count of admissions, and, by CALLS_ADMITTED, the Performance Monitor,
the archive and the Notice Unit (R107). -/
theorem grant_frame (use : SlotUse) (party : SlotParty) (order : Option Nat) (s : State) :
    ∃ p a n, grant use party order s =
      { s with
        slots := { (s.setSlot (lowestFree s) { SlotRec.free (s.slot (lowestFree s)).stale with
            state := .reserved, use := some use, party := party, order := order
            number := (s.slots.admissions + 1) % 65536, admittedAt := s.time.uptime
            wait := if use = .outgoing then some 100 else none }).slots with
          admissions := (s.slots.admissions + 1) % 65536, newest := some (lowestFree s) }
        perf := p, archive := a, notices := n } := by
  unfold grant
  dsimp only
  obtain ⟨p, a, n, e⟩ := count_frame .callsAdmitted _
  rw [e]
  refine ⟨p, a, n, ?_⟩
  cases lowestFree s <;> rfl

/-- An accepted order for port 1 alone: the abort of the port's test, the admission, and the port RINGING (R93, R111). -/
theorem acceptRing_one (cadence order : Nat) (s : State) : ∃ t, acceptRing .one cadence order s =
    onPort .p1 (startRinging (lowestFree s) order s.handset.p1.timing.ring (s.handset.cadences.getD cadence []))
      (grant .ring (.set .one) (some order) t) ∧
    t.slots = s.slots ∧ t.handset = s.handset ∧ t.overhead = s.overhead := by
  obtain ⟨x, a, n, e⟩ := abortNamedTest_frame .one s
  exact ⟨_, rfl, by rw [e], by rw [e], by rw [e]⟩

theorem lowestFree_of_slots {s t : State} (same : t.slots = s.slots) : lowestFree t = lowestFree s := by
  simp only [lowestFree, same]

/-- Settles O48: a call is released as its port is refused, an order for port 1 is an admission and a port that starts to ring,
and its end is that of an order that rings alone. -/
theorem callsAreReleasedAndRung : Obligations.CallsAreReleasedAndRung := by
  unfold Obligations.CallsAreReleasedAndRung
  intro s hs service
  refine ⟨fun k p reason used held party call => ?_, fun cadence order entry unused idle phase room => ?_,
    fun order reserved held use ordered ringing slot silent => ?_⟩
  · rw [exec_release hs service, takeRelease_call reason (SlotRec.live_of_used used held) call,
      refuseParty_markReleased _ party]
  · refine ⟨_, exec_ring hs service .one cadence order, ?_⟩
    dsimp only
    rw [takeRing_accepted entry unused (portsFault_idle idle) phase room]
    obtain ⟨t, accepted, slots, handset, overhead⟩ := acceptRing_one cadence order s
    obtain ⟨p, a, n, granted⟩ := grant_frame .ring (.set .one) (some order) t
    rw [lowestFree_of_slots slots] at granted
    rw [accepted, granted, ← overhead, ← handset, ← slots]
    cases lowestFree s <;> exact ⟨rfl, rfl, rfl, rfl, rfl, rfl, rfl, rfl, rfl, rfl, rfl, rfl⟩
  · have unanswered : (s.slot .s0).ringing = true := by
      simp [SlotRec.ringing, SlotRec.live, SlotRec.isFree, State.slot, reserved, held, use]
    rw [exec_ringStop hs service, takeRingStop_ringing (orderSlot_first reserved held use ordered) unanswered,
      endOrder_alone ringing slot silent]
    rfl

end Sys2Proof.Machine
end

section
namespace Sys2Proof.Machine

/-! ## The queue map and the counter thresholds (R124, R138, R139) -/

theorem destinationOfCode_eq (d : Nat) :
    destinationOfCode d = if d = 0 then .priority else if d = 1 then .bulk else .discard := by
  rcases d with _ | _ | d <;> rfl

section
variable {via : Via} {s : State} (d : Dispatchable via s)
include d

theorem exec_setQueueMap (map : List Nat) : exec (.setQueueMap via map) s = .next
    (if map.length = 8 ∧ ∀ d ∈ map, d ≤ 2 then
      respond via 0x1A .done [] { s with data.map := map.map destinationOfCode }
    else respond via 0x1A .badParameter [] s) := by
  rw [exec_request (c := .setQueueMap via map) d (originAllowed_any rfl _) rfl]
  unfold serveSetQueueMap
  rw [conclude_ite via 0x1A (by simp : _ ↔ map.length = 8 ∧ ∀ d ∈ map, d ≤ 2)]
  rfl

theorem exec_setThresholds {t : List Int} (twelve : t.length = 12) : exec (.setThresholds via t) s = .next
    (respond via 0x1B (resultOf (t.all (inBounds 0 65535))) [] { s with perf.thresholds := t.map (fitTo 0 65535) }) := by
  rw [exec_request (c := .setThresholds via t) d (originAllowed_any rfl _) rfl, serveSetThresholds, if_pos twelve,
    conclude_doneOr via 0x1B (any_wasClamped 0 65535 t), map_clampNat 0 65535 (by decide)]
  rfl

/-- Thresholds of 16 bits are taken as they are. -/
theorem exec_setThresholds_inside {values : List Nat} (twelve : values.length = 12) (inside : ∀ x ∈ values, x ≤ 65535) :
    exec (.setThresholds via (values.map Nat.cast)) s = .next
      (respond via 0x1B .done [] { s with perf.thresholds := values }) := by
  have bounded : (values.map Nat.cast).all (inBounds 0 65535) = true := by simpa [inBounds] using inside
  have fitted : (values.map Nat.cast).map (fitTo 0 65535) = values := by
    rw [List.map_map]
    refine (List.map_congr_left fun x hx => ?_).trans (List.map_id values)
    have := inside x hx
    simp only [Function.comp_apply, fitTo, id]
    omega
  rw [exec_setThresholds d ((List.length_map _).trans twelve), bounded, fitted]
  rfl

end

/-- A counter whose threshold is 0 is counted without a crossing (R138). -/
theorem count_without_threshold (c : Counter) (s : State) (off : s.perf.thresholds.getD c.index 0 = 0) :
    ∃ counters, count c s = { s with perf.counters := counters } := by
  unfold count
  dsimp only
  split
  · rw [if_neg fun crosses => crosses.1 off]
    exact ⟨_, rfl⟩
  · exact ⟨_, rfl⟩

/-- Settles O56: each table is replaced by the owner of its request, whose answer says whether the values were in form. -/
theorem mapAndThresholdsAreReplaced : Obligations.MapAndThresholdsAreReplaced := by
  unfold Obligations.MapAndThresholdsAreReplaced
  refine ⟨fun via map s hs free => ?_, fun via values s hs free twelve inside => ?_, fun c s off => ?_⟩
  · rw [exec_setQueueMap ⟨hs, free⟩, funext destinationOfCode_eq]
  · have cast : (values.map fun x => (x : Int)) = values.map Nat.cast := by simp [List.map_eq_flatMap]
    rw [cast, exec_setThresholds_inside ⟨hs, free⟩ twelve inside]
  · obtain ⟨counters, counted⟩ := count_without_threshold c s off
    rw [counted]
    exact ⟨rfl, rfl⟩

end Sys2Proof.Machine
end

section
namespace Sys2Proof.Machine

/-! ## What fills the home delivery buffer (R120, R126, R129) -/

/-- From `s` to `t` frames have joined the home delivery buffer behind those that stood in it, within its capacity; of the Data
Queue Unit only what is being sent and what is due may have changed besides. -/
structure BufferGrows (s t : State) : Prop where
  data : t.data = { s.data with buffer := t.data.buffer, tx := t.data.tx, pauseDue := t.data.pauseDue }
  behind : s.data.buffer <+: t.data.buffer
  fits : bufferFill s.data.buffer ≤ 6144 → bufferFill t.data.buffer ≤ 6144

theorem BufferGrows.refl (s : State) : BufferGrows s s := ⟨rfl, List.prefix_rfl, id⟩

theorem BufferGrows.trans {s t u : State} (h : BufferGrows s t) (k : BufferGrows t u) : BufferGrows s u :=
  ⟨by rw [k.data, h.data], h.behind.trans k.behind, k.fits ∘ h.fits⟩

/-- The growth is about the Data Queue Unit alone. -/
theorem BufferGrows.after {s t u : State} (k : BufferGrows t u) (same : t.data = s.data) : BufferGrows s u :=
  ⟨same ▸ k.data, same ▸ k.behind, same ▸ k.fits⟩

theorem kickHome_grows (s : State) : BufferGrows s (kickHome s) := by
  unfold kickHome
  split
  · split
    · exact ⟨rfl, List.prefix_rfl, id⟩
    · split
      · exact .refl s
      · exact ⟨rfl, List.prefix_rfl, id⟩
  · exact .refl s

theorem duePause_grows (p : Pause) (s : State) : BufferGrows s (duePause p s) :=
  BufferGrows.trans (t := { s with data.pauseDue := some p }) ⟨rfl, List.prefix_rfl, id⟩ (kickHome_grows _)

theorem putHome_grows {f : HomeFrame} {s : State} (room : bufferTakes s f.bytes.length = true) :
    BufferGrows s (putHome f s) := by
  simp only [bufferTakes, Bool.and_eq_true, decide_eq_true_eq] at room
  have joined : BufferGrows s { s with data.buffer := s.data.buffer ++ [f] } :=
    ⟨rfl, List.prefix_append _ _, fun _ => (bufferFill_append _ _).trans_le room.2⟩
  exact joined.trans (kickHome_grows _)

theorem putHome_mem (f : HomeFrame) (s : State) : f ∈ (putHome f s).data.buffer := by
  rw [putHome, (kickHome_queues _).2.2]
  exact List.mem_append_right _ (List.mem_singleton_self f)

theorem offerHomeResponses_grows (n : Nat) (s : State) : BufferGrows s (offerHomeResponses n s) := by
  induction n generalizing s with
  | zero => exact .refl s
  | succ n ih =>
    unfold offerHomeResponses
    split
    · exact .refl s
    · dsimp only
      split
      · exact (ih _).after rfl
      · split
        · exact ((putHome_grows ‹_›).trans (ih _)).after rfl
        · exact .refl s

theorem placeHomeNotice_grows (s : State) : BufferGrows s (placeHomeNotice s) := by
  unfold placeHomeNotice
  split
  · dsimp only
    split
    · exact (putHome_grows ‹_›).after rfl
    · exact .refl s
  · exact .refl s

theorem placeHomeNotices_grows (n : Nat) (s : State) : BufferGrows s (placeHomeNotices n s) := by
  induction n generalizing s with
  | zero => exact .refl s
  | succ n ih => exact (placeHomeNotice_grows s).trans (ih _)

/-- A notice placed in the buffer changes the Data Queue Unit and the Notice Unit. -/
theorem placeHomeNotice_frame (s : State) : ∃ d n, placeHomeNotice s = { s with data := d, notices := n } := by
  unfold placeHomeNotice
  split
  · rename_i e _
    dsimp only
    split
    · obtain ⟨d, h⟩ := putHome_frame (noticeFrame s e.notice) { s with notices := s.notices.handed .home e.place }
      exact ⟨d, _, h⟩
    · exact ⟨s.data, s.notices, rfl⟩
  · exact ⟨s.data, s.notices, rfl⟩

theorem placeHomeNotices_frame (k : Nat) (s : State) :
    ∃ d n, placeHomeNotices k s = { s with data := d, notices := n } := by
  induction k generalizing s with
  | zero => exact ⟨s.data, s.notices, rfl⟩
  | succ k ih =>
    obtain ⟨d, n, h⟩ := placeHomeNotice_frame s
    obtain ⟨d', n', h'⟩ := ih (placeHomeNotice s)
    exact ⟨d', n', by rw [placeHomeNotices, h', h]⟩

/-- The room of the buffer goes to the response that waits first, where it fits (R129, R191). -/
theorem offerHomeResponses_takes_first (n : Nat) {s : State} {e : ListedResponse} {rest : List ListedResponse}
    (up : s.data.linkUp = true) (waiting : s.mgmt.home.responses = e :: rest)
    (room : bufferFill s.data.buffer + (responseFrame s e.response).bytes.length ≤ 6144) :
    responseFrame s e.response ∈ (offerHomeResponses (n + 1) s).data.buffer := by
  have takes : bufferTakes s (responseFrame s e.response).bytes.length = true := by simp [bufferTakes, up, room]
  rw [offerHomeResponses, waiting]
  simp only [up, takes, Bool.not_true, Bool.false_eq_true, if_false, if_true]
  exact (offerHomeResponses_grows n _).behind.subset (putHome_mem _ _)

/-! ## The link comes UP, and the buffer's room is filled (R120, R129) -/

/-- What the link coming UP does before notices are placed (R120, R126). -/
def linkRaised (s : State) : State :=
  if s.data.flowPause then duePause .longest { s with data := { s.data with linkUp := true, pauseTimer := some 10 } }
  else kickHome { s with data.linkUp := true }

theorem linkComesUp_eq (s : State) : linkComesUp s = placeHomeNotices 24 (linkRaised s) := rfl

theorem linkRaised_grows (s : State) : ∃ timer,
    BufferGrows { s with data := { s.data with linkUp := true, pauseTimer := timer } } (linkRaised s) := by
  unfold linkRaised
  split
  · exact ⟨_, duePause_grows _ _⟩
  · exact ⟨_, kickHome_grows _⟩

theorem linkRaised_frame (s : State) : ∃ d, linkRaised s = { s with data := d } := by
  unfold linkRaised
  split
  · exact (duePause_frame _ _).imp fun _ h => h
  · exact (kickHome_frame _).imp fun _ h => h

theorem linkComesUp_effect (s : State) : (linkComesUp s).data.linkUp = true ∧
    (linkComesUp s).data.priority = s.data.priority ∧ (linkComesUp s).data.bulk = s.data.bulk ∧
    linkComesUp s = { s with data := (linkComesUp s).data, notices := (linkComesUp s).notices } := by
  obtain ⟨timer, raised⟩ := linkRaised_grows s
  have grown := (raised.trans (placeHomeNotices_grows 24 _)).data
  obtain ⟨d, frame⟩ := linkRaised_frame s
  obtain ⟨d', n, placed⟩ := placeHomeNotices_frame 24 (linkRaised s)
  rw [linkComesUp_eq]
  exact ⟨congrArg (·.linkUp) grown, congrArg (·.priority) grown, congrArg (·.bulk) grown, by rw [placed, frame]⟩

theorem fillHome_grows (noticeFirst : Bool) (s : State) : BufferGrows s (fillHome noticeFirst s) := by
  unfold fillHome
  split
  · exact (placeHomeNotice_grows _).trans (offerHomeResponses_grows 8 _)
  · exact (offerHomeResponses_grows 8 _).trans (placeHomeNotice_grows _)

theorem fillHome_frame (noticeFirst : Bool) (s : State) :
    ∃ d n g, fillHome noticeFirst s = { s with data := d, notices := n, mgmt := g } := by
  unfold fillHome
  split
  · obtain ⟨d, n, h⟩ := placeHomeNotice_frame s
    obtain ⟨d', g, h'⟩ := offerHomeResponses_frame 8 (placeHomeNotice s)
    exact ⟨d', n, g, by rw [h', h]⟩
  · obtain ⟨d, g, h⟩ := offerHomeResponses_frame 8 s
    obtain ⟨d', n, h'⟩ := placeHomeNotice_frame (offerHomeResponses 8 s)
    exact ⟨d', n, g, by rw [h', h]⟩

/-! ## The home transmitter (R126, R129) -/

/-- A data frame has been sent and no pause frame is due: the next frame of the buffer is begun, where there is one (R129). -/
theorem frameGap_data {s : State} {f : HomeFrame} {rest : List HomeFrame} (up : s.data.linkUp = true)
    (sending : s.data.tx = .frame) (head : s.data.buffer = f :: rest) (item : f.item = .data)
    (noPause : s.data.pauseDue = none) :
    frameGap s = { s with data := { s.data with buffer := rest, tx := if rest = [] then .idle else .frame } } := by
  cases rest <;> simp [frameGap, sending, headSent, head, item, kickHome, up, noPause]

/-- The repeat of a pause frame falls due while another frame is being sent (R126). -/
theorem repeatPause_asserted {s : State} (asserted : s.data.flowPause = true) (up : s.data.linkUp = true)
    (sending : s.data.tx = .frame) :
    repeatPause s = { s with data := { s.data with pauseTimer := some 10, pauseDue := some .longest } } := by
  simp [repeatPause, asserted, up, duePause, kickHome, sending]

end Sys2Proof.Machine
end

section
namespace Sys2Proof.Machine

/-! ## A notice that comes back as the buffer is emptied (R129, R141, R146) -/

/-- The entry of a notice that has left the queue and comes back from a channel, as the `k`-th that is placed or returned. -/
def NoticeEntry.returned (o : Outlet) (x : Notice) (k : Nat) : NoticeEntry :=
  NoticeEntry.back ⟨x, false, false, k, none, none⟩ k o

/-- The notice `x` has left the queue, and there is room for it and for `n` more; its channel takes it back (R144, R146). What
stands in the queue, the overhead transmit queue and the buffer leaves sequence numbers free (R141). -/
structure Returnable (o : Outlet) (x : Notice) (n : Nat) (s : State) : Prop where
  enabled : s.notices.enabled o = true
  next : s.notices.nextSequence < 65536
  overhead : s.overhead.queue.length ≤ 16
  room : s.notices.queue.length + n < 24
  gone : ∀ e ∈ s.notices.queue, e.notice.sequence ≠ x.sequence

theorem returnNotice_gone {o : Outlet} {x : Notice} {s : State} (h : Returnable o x 0 s) :
    (returnNotice o x s).notices.queue = s.notices.queue ++ [.returned o x s.notices.nextPlace] := by
  have absent : s.notices.queue.any (fun e => e.notice.sequence == x.sequence) = false := by simpa using h.gone
  have room : s.notices.makeRoom x.severity = (s.notices, true) := if_pos h.room
  simp only [returnNotice, h.enabled, absent, room, NoticeEntry.returned, Bool.not_true, Bool.false_eq_true, if_false, if_true]

/-- A count with the notice's sequence number still held leaves the notice returnable: the THRESHOLD it may raise takes one room
of the queue and another number (R138, R141). -/
theorem count_returnable (c : Counter) {x : Notice} {n : Nat} {s : State} (h : Returnable .home x (n + 1) s)
    (held : x.sequence ∈ s.heldSequences) (short : s.data.buffer.length ≤ 24) :
    Returnable .home x n (count c s) ∧ s.notices.queue <+: (count c s).notices.queue := by
  have room := h.room
  have few : s.heldSequences.length < 65536 := by
    have := heldSequences_length s
    have := h.overhead
    omega
  obtain ⟨l, queue, one, others, next, enabled⟩ := count_room c s (by omega) h.next few
  obtain ⟨p, a, m, frame⟩ := count_frame c s
  refine ⟨⟨enabled.trans h.enabled, next, by rw [frame]; exact h.overhead, ?_, fun e he same => ?_⟩, ?_⟩
  · rw [queue, List.length_append]
    omega
  · rw [queue] at he
    rcases List.mem_append.mp he with he | he
    · exact h.gone e he same
    · exact others e he (same ▸ held)
  · rw [queue]
    exact List.prefix_append _ _

/-- The frames before a notice are data frames, which are dropped and counted; the notice is then the one entry of the queue with
its sequence number (R129, R141, R146; log entry 67). -/
theorem returnFrames_notice {x : Notice} {bytes : List Byte} {before : List HomeFrame} {s : State}
    (allData : ∀ f ∈ before, f.item = .data) (h : Returnable .home x before.length s) :
    ∃ q k, (returnFrames (before ++ [⟨.notice x, bytes⟩]) s).notices.queue = q ++ [.returned .home x k] ∧
      s.notices.queue <+: q ∧ ∀ e ∈ q, e.notice.sequence ≠ x.sequence := by
  induction before generalizing s with
  | nil => exact ⟨_, _, returnNotice_gone (s := { s with data.buffer := [] }) { h with }, List.prefix_rfl, h.gone⟩
  | cons f rest ih =>
    obtain ⟨item, restData⟩ := List.forall_mem_cons.mp allData
    let t : State := { s with data.buffer := rest ++ [⟨.notice x, bytes⟩] }
    have held : x.sequence ∈ t.heldSequences := by simp [t, State.heldSequences]
    have short : t.data.buffer.length ≤ 24 := by
      have := h.room
      simp only [t, List.length_append, List.length_cons, List.length_nil] at this ⊢
      omega
    obtain ⟨counted, kept⟩ := count_returnable .framesDropped (s := t) { h with } held short
    obtain ⟨q, k, queue, more, gone⟩ := ih restData counted
    refine ⟨q, k, ?_, kept.trans more, gone⟩
    rw [List.cons_append, returnFrames, item]
    exact queue

/-! ## The link goes DOWN (R120, R129, R191) -/

/-- What is being sent or due is abandoned as the link goes DOWN. -/
def linkLowered (s : State) : State := { s with data := { s.data with linkUp := false, tx := .idle, pauseDue := none } }

/-- The frames of the buffer go back, and the waiting responses of the home channel are discarded as they are offered. -/
theorem linkGoesDown_frame (s : State) : ∃ l, linkGoesDown s =
    { returnFrames s.data.buffer (linkLowered s) with mgmt.home.responses := l } := by
  refine offerHomeResponses_down 8 _ ?_
  obtain ⟨p, a, n, h⟩ := returnFrames_frame s.data.buffer (linkLowered s)
  exact congrArg (·.data.linkUp) h

theorem linkGoesDown_effect (s : State) : (linkGoesDown s).data = { (linkLowered s).data with buffer := [] } ∧
    (linkGoesDown s).mgmt.home.requests = s.mgmt.home.requests := by
  obtain ⟨l, down⟩ := linkGoesDown_frame s
  obtain ⟨p, a, n, emptied⟩ := returnFrames_frame s.data.buffer (linkLowered s)
  rw [down, emptied]
  exact ⟨rfl, rfl⟩

theorem linkGoesDown_returnsNotice {before : List HomeFrame} {x : Notice} {bytes : List Byte} {s : State}
    (stands : s.data.buffer = before ++ [⟨.notice x, bytes⟩]) (allData : ∀ f ∈ before, f.item = .data)
    (h : Returnable .home x before.length s) :
    ∃ e ∈ (linkGoesDown s).notices.queue,
      e.notice = x ∧ e.home = true ∧ e.homeReturn.isSome = true ∧ e.overhead = false ∧
      (∀ q ∈ (linkGoesDown s).notices.queue, q.notice.sequence = x.sequence → q = e) ∧
      ∀ q ∈ s.notices.queue, q ∈ (linkGoesDown s).notices.queue := by
  obtain ⟨l, down⟩ := linkGoesDown_frame s
  obtain ⟨q, k, queue, more, gone⟩ := returnFrames_notice (bytes := bytes) (s := linkLowered s) allData { h with }
  have final : (linkGoesDown s).notices.queue = q ++ [.returned .home x k] := by rw [down, stands]; exact queue
  rw [final]
  refine ⟨.returned .home x k, by simp, rfl, rfl, rfl, rfl, fun e he same => ?_, fun e he => ?_⟩
  · rcases List.mem_append.mp he with he | he
    · exact absurd same (gone e he)
    · exact List.mem_singleton.mp he
  · exact List.mem_append_left _ (more.subset he)

/-- Settles O50: the frames come and go at the two ends of the buffer, and the notice behind data frames comes back once each of
them has been counted with the notice's sequence number still held. -/
theorem homeLinkMoves : Obligations.HomeLinkMoves := by
  unfold Obligations.HomeLinkMoves
  intro s hs
  refine ⟨fun down => ?_, fun up => ?_, fun before x bytes up stands allData enabled next overhead room gone => ?_,
    fun f rest up sending head item noPause => ?_, fun timer asserted up sending => ?_, fun first up => ?_⟩
  · exact ⟨_, exec_of_due (c := .homeLinkUp) hs rfl (congrArg not down), linkComesUp_effect s⟩
  · obtain ⟨data, requests⟩ := linkGoesDown_effect s
    refine ⟨_, exec_of_due (c := .homeLinkDown) hs rfl up, ?_⟩
    exact ⟨congrArg (·.linkUp) data, congrArg (·.buffer) data, congrArg (·.tx) data, requests, congrArg (·.priority) data,
      congrArg (·.bulk) data⟩
  · exact ⟨_, exec_of_due (c := .homeLinkDown) hs rfl up,
      linkGoesDown_returnsNotice stands allData ⟨enabled, next, overhead, room, gone⟩⟩
  · rw [exec_of_due (c := .homeFrameSent) hs rfl up, frameGap_data up sending head item noPause]
  · rw [exec_of_due (c := .pauseRepeatExpiry) hs rfl (beq_iff_eq.mpr timer), repeatPause_asserted asserted up sending]
  · have grown := fillHome_grows first s
    obtain ⟨d, n, g, frame⟩ := fillHome_frame first s
    refine ⟨_, exec_of_due (c := .homeBufferRoom first) hs rfl up, grown.behind, grown.fits, by rw [frame],
      fun e rest waiting notNotice fits => ?_⟩
    subst notNotice
    exact (placeHomeNotice_grows _).behind.subset (offerHomeResponses_takes_first 7 up waiting fits)

end Sys2Proof.Machine
end

section
namespace Sys2Proof.Machine

/-! ## The classification of a second (R134) -/

/-- A count that is made on a condition, as the classes of a second are counted (R134). -/
def countWhen (b : Bool) (c : Counter) (s : State) : State := if b then count c s else s

theorem classifySecond_eq (s : State) : classifySecond s =
    countWhen (severeSecond s.perf) .ses (countWhen (erroredSecond s.perf) .es (emptySecond s)) := rfl

theorem countWhen_counters (b : Bool) (c : Counter) {s : State} (inside : c.index < s.perf.counters.length)
    (small : s.perf.counters.getD c.index 0 < 65535) :
    (countWhen b c s).perf.counters.getD c.index 0 = s.perf.counters.getD c.index 0 + (if b then 1 else 0) := by
  cases b
  · rfl
  · exact count_counters c s inside small

theorem countWhen_counters_other (b : Bool) (c : Counter) (s : State) {i : Nat} (other : i ≠ c.index) :
    (countWhen b c s).perf.counters.getD i 0 = s.perf.counters.getD i 0 := by
  cases b
  · rfl
  · exact count_counters_other c s other

theorem countWhen_counters_length (b : Bool) (c : Counter) (s : State) :
    (countWhen b c s).perf.counters.length = s.perf.counters.length := by
  cases b
  · rfl
  · exact count_counters_length c s

/-- A count changes the counters and the crossings of the Performance Monitor. -/
theorem count_perf (c : Counter) (s : State) :
    ∃ l x, (count c s).perf = { s.perf with counters := l, crossings := x } := by
  unfold count
  dsimp only
  split
  · split
    · exact ⟨_, _, raise_perf _ _ _ _ _⟩
    · exact ⟨_, s.perf.crossings, rfl⟩
  · exact ⟨s.perf.counters, s.perf.crossings, rfl⟩

theorem countWhen_perf (b : Bool) (c : Counter) (s : State) :
    ∃ l x, (countWhen b c s).perf = { s.perf with counters := l, crossings := x } := by
  cases b
  · exact ⟨s.perf.counters, s.perf.crossings, rfl⟩
  · exact count_perf c s

/-- The classification empties the second record and moves nothing of the Performance Monitor but counters and crossings. -/
theorem classifySecond_perf (s : State) :
    ∃ l x, (classifySecond s).perf = { (emptySecond s).perf with counters := l, crossings := x } := by
  obtain ⟨l, x, es⟩ := countWhen_perf (erroredSecond s.perf) .es (emptySecond s)
  obtain ⟨l', x', ses⟩ := countWhen_perf (severeSecond s.perf) .ses (countWhen (erroredSecond s.perf) .es (emptySecond s))
  rw [es] at ses
  exact ⟨l', x', ses⟩

section
variable {s : State} (inside : s.perf.counters.length = 12) (small : ∀ i, s.perf.counters.getD i 0 < 65535)
include inside small

theorem classifySecond_es : (classifySecond s).perf.counters.getD 0 0 =
    s.perf.counters.getD 0 0 + (if erroredSecond s.perf then 1 else 0) := by
  have low : Counter.es.index < (emptySecond s).perf.counters.length := by
    rw [show (emptySecond s).perf.counters.length = 12 from inside]
    decide
  rw [classifySecond_eq, countWhen_counters_other _ .ses _ (by decide)]
  exact countWhen_counters _ .es low (small 0)

theorem classifySecond_ses : (classifySecond s).perf.counters.getD 1 0 =
    s.perf.counters.getD 1 0 + (if severeSecond s.perf then 1 else 0) := by
  have kept := countWhen_counters_other (erroredSecond s.perf) .es (emptySecond s) (i := 1) (by decide)
  have low : Counter.ses.index < (countWhen (erroredSecond s.perf) .es (emptySecond s)).perf.counters.length := by
    rw [countWhen_counters_length, show (emptySecond s).perf.counters.length = 12 from inside]
    decide
  have counted := countWhen_counters (severeSecond s.perf) .ses low (kept ▸ small 1)
  exact counted.trans (congrArg (· + _) kept)

end

theorem classifySecond_others (s : State) {i : Nat} (two : 2 ≤ i) :
    (classifySecond s).perf.counters.getD i 0 = s.perf.counters.getD i 0 := by
  have es : i ≠ Counter.es.index := Nat.ne_of_gt (Nat.lt_of_lt_of_le (by decide) two)
  have ses : i ≠ Counter.ses.index := Nat.ne_of_gt (Nat.lt_of_lt_of_le (by decide) two)
  rw [classifySecond_eq, countWhen_counters_other _ .ses _ ses, countWhen_counters_other _ .es _ es]
  rfl

/-- The retirements of a second boundary count nothing (R38). -/
theorem raiseRetired_perf (l : List Nat) (s : State) : (raiseRetired l s).perf = s.perf := by
  induction l generalizing s with
  | nil => rfl
  | cons i rest ih => exact (ih _).trans (raise_perf _ _ _ _ _)

theorem serviceSecond_perf (s : State) : (serviceSecond s).perf = (classifySecond s).perf := raiseRetired_perf _ _

/-- What a second boundary brings before the second is classified (R2, R51, R136, R188). -/
def secondElapsed (s : State) : State :=
  let up := laterUptime s.time.uptime 1
  { s with
    time := { s.time with uptime := up, secondDue := false, intervalDue := up % 900 == 0 }
    perf.seconds := satInc 900 s.perf.seconds
    line.backoff := if s.line.state = .wait then s.line.backoff - 1 else s.line.backoff
    supply.wakeWindow := if s.supply.state = .hold then tickDown s.supply.wakeWindow else s.supply.wakeWindow }

theorem secondEnds_service {s : State} (service : s.line.state = .service) :
    secondEnds s = serviceSecond (secondElapsed s) := if_pos service

theorem severeSecond_eq (p : Perf) :
    severeSecond p = decide (40 ≤ p.outside ∨ 20 ≤ p.failures ∨ p.noSignal = true) := by
  simp [severeSecond, Bool.decide_or, Bool.or_assoc]

theorem erroredSecond_eq (p : Perf) :
    erroredSecond p = (severeSecond p || decide (1 ≤ p.outside ∨ 1 ≤ p.failures)) := by
  rw [erroredSecond, Bool.decide_or, Bool.or_comm, Bool.or_comm (decide (1 ≤ p.failures))]

/-- Settles O13: only the classification of the second counts, and it starts from the counters as they stand. -/
theorem secondIsClassified : Obligations.SecondIsClassified := by
  unfold Obligations.SecondIsClassified
  intro s hs due service twelve small
  have ended : exec .secondBoundary s = .next (serviceSecond (secondElapsed s)) := by
    rw [exec_of_due (c := .secondBoundary) hs rfl due, secondEnds_service service]
  obtain ⟨l, x, emptied⟩ := classifySecond_perf (secondElapsed s)
  refine ⟨_, ended, ?_⟩
  dsimp only
  rw [serviceSecond_perf, ← severeSecond_eq, ← erroredSecond_eq]
  refine ⟨classifySecond_es (s := secondElapsed s) twelve small, classifySecond_ses (s := secondElapsed s) twelve small,
    fun i two => classifySecond_others (secondElapsed s) two, ?_⟩
  rw [emptied]
  exact ⟨rfl, rfl, rfl⟩

end Sys2Proof.Machine
end

section
namespace Sys2Proof.Machine

/-! ## The end of a test (R142, R174, R176) -/

/-- A notice raised neither reads nor changes the Tester (R141, R147). -/
theorem raise_withTester (cls : NoticeClass) (sev : Severity) (code : NoticeCode) (ps : List Int) (x : Tester) (s : State) :
    raise cls sev code ps { s with tester := x } = { raise cls sev code ps s with tester := x } := by
  have copied : copyToArchive cls sev code ps { s with tester := x } =
      { copyToArchive cls sev code ps s with tester := x } := by
    unfold copyToArchive
    dsimp only
    split <;> rfl
  unfold raise
  rw [copied]
  dsimp only
  split
  · unfold placeNotice State.heldSequences
    dsimp only
    split <;> rfl
  · rfl

theorem reportResult_writeResult (c : Claim) (v : Verdict) (value : Int) (s : State) :
    reportResult c v value (writeResult c v value s) =
      { reportResult c v value s with tester := (writeResult c v value s).tester } := raise_withTester _ _ _ _ _ s

/-- TEST_RESULT of a test with its value (R142, R174). -/
def resultTold (c : Claim) (value : Int) (s : State) : State :=
  reportResult c (verdictOf c.test (limitsOf s c.test) value) value s

/-- The results table with the test's entry replaced (R176). -/
def resultsAfter (c : Claim) (value : Int) (s : State) : List TestEntry :=
  s.tester.results.set c.test.index
    ⟨verdictOf c.test (limitsOf s c.test) value, value, c.port, some c.origin, s.time.uptime⟩

/-- The state in which the line and the port of a test that has ended are given back: the result is told and written, and the
claim is free (R174). -/
def testOver (c : Claim) (value : Int) (s : State) : State :=
  { resultTold c value s with tester := { s.tester with results := resultsAfter c value s, claim := none } }

theorem testOver_frame (c : Claim) (value : Int) (s : State) : ∃ a n, testOver c value s = { s with
    tester := { s.tester with results := resultsAfter c value s, claim := none }, archive := a, notices := n } := by
  obtain ⟨a, n, e⟩ := raise_frame .test (resultSeverity c.test (verdictOf c.test (limitsOf s c.test) value)) .testResult
    [Config.testTarget c.test.index (portNumber c.port), value, ((verdictOf c.test (limitsOf s c.test) value).code : Int)] s
  exact ⟨a, n, by rw [testOver, resultTold, reportResult, e]⟩

theorem testOver_line (c : Claim) (value : Int) (s : State) : (testOver c value s).line = s.line := by
  obtain ⟨a, n, e⟩ := testOver_frame c value s
  rw [e]

theorem testOver_tester (c : Claim) (value : Int) (s : State) : (testOver c value s).tester =
    { s.tester with results := resultsAfter c value s, claim := none } := rfl

theorem testOver_supply (c : Claim) (value : Int) (s : State) : (testOver c value s).supply = s.supply := by
  obtain ⟨a, n, e⟩ := testOver_frame c value s
  rw [e]

section
variable {c : Claim} {m : Measurement} {s : State}

theorem completeTest_eq : completeTest m c s =
    match nextOfSequence c (verdictOf c.test (limitsOf s c.test) (testValue c.test m)) with
    | some n => { resultTold c (testValue c.test m) s with
        tester := { s.tester with results := resultsAfter c (testValue c.test m) s, claim := some n } }
    | none => givePortBack c (giveLineBack c (testOver c (testValue c.test m) s)) := by
  rw [completeTest]
  dsimp only
  rw [reportResult_writeResult]
  rfl

/-- LINE_VOLTAGE of the automatic sequence hands the claim on, unless it fails (R177). -/
theorem completeTest_handsOn (automatic : c.automatic = true) (first : c.test = .lineVoltage)
    (passed : verdictOf c.test (limitsOf s c.test) (testValue c.test m) ≠ .fail) :
    completeTest m c s = { resultTold c (testValue c.test m) s with tester := { s.tester with
      results := resultsAfter c (testValue c.test m) s, claim := some { c with test := .lineInsulation, timer := 300 } } } := by
  rw [completeTest_eq, nextOfSequence, if_pos ⟨automatic, first, passed⟩]
  rfl

/-- Any other end of a test frees the claim (R174). -/
theorem completeTest_ends (last : c.automatic = false ∨ c.test ≠ .lineVoltage ∨
      verdictOf c.test (limitsOf s c.test) (testValue c.test m) = .fail) :
    completeTest m c s = givePortBack c (giveLineBack c (testOver c (testValue c.test m) s)) := by
  have noNext : ¬ (c.automatic = true ∧ c.test = .lineVoltage ∧
      verdictOf c.test (limitsOf s c.test) (testValue c.test m) ≠ .fail) := by
    rintro ⟨automatic, first, passed⟩
    rcases last with manual | other | failed
    · simp [manual] at automatic
    · exact other first
    · exact passed failed
  rw [completeTest_eq, nextOfSequence, if_neg noNext]

theorem exec_testComplete (hs : s.powered = true) (claim : s.tester.claim = some c) (ended : c.timer = 0) :
    exec (.testComplete m) s = .next (completeTest m c s) := by
  simp only [exec, execTestComplete, run_powered _ _ hs, claim, if_pos ended]

/-- The claim of a line test leaves the ports as they are (R174). -/
theorem exec_testComplete_line (hs : s.powered = true) (claim : s.tester.claim = some c) (ended : c.timer = 0)
    (noPort : c.port = none) (last : c.automatic = false ∨ c.test ≠ .lineVoltage ∨
      verdictOf c.test (limitsOf s c.test) (testValue c.test m) = .fail) :
    exec (.testComplete m) s = .next (giveLineBack c (testOver c (testValue c.test m) s)) := by
  rw [exec_testComplete hs claim ended, completeTest_ends last, givePortBack, noPort]

end

/-! ## The line and the port go back (R99, R174) -/

theorem idleThenLoop_onHook {p : Port} {s : State} (h : (s.port p).loop = .onHook) :
    idleThenLoop p s = onPort p PortRec.toIdle s := by
  have onHook : ((onPort p PortRec.toIdle s).port p).offHook = false := by
    rw [onPort_port, PortRec.offHook, PortRec.toIdle_loop, h]
    rfl
  exact if_neg (by rw [onHook]; decide)

/-- A tested port with its loop open is IDLE, and nothing but the port changes with it (R99, R174). -/
theorem givePortBack_onHook {c : Claim} {p : Port} {s : State} (port : c.port = some p) (h : (s.port p).loop = .onHook) :
    givePortBack c s = s.setPort p (s.port p).toIdle := by
  rw [givePortBack, port]
  exact idleThenLoop_onHook h

/-- The attempt count with which a line test leaves the line in HANDSHAKE, and the request of the automatic sequence there
(R174, R177). -/
def handshakeAfter (c : Claim) (s : State) : State :=
  { s with
    line.attempts := if c.lineBefore = some .handshake then s.line.attempts else 0
    tester.autoPending := if c.lineBefore = some .off then false else s.tester.autoPending }

theorem giveLineBack_off {c : Claim} {s : State} (off : c.lineBefore = some .off) (disabled : s.line.enabled = false) :
    giveLineBack c s = { s with line.state := .off } := by
  rw [giveLineBack, off]
  exact if_neg (by rw [disabled]; decide)

theorem giveLineBack_wait {c : Claim} {s : State} (wait : c.lineBefore = some .wait) :
    giveLineBack c s = { s with line.state := .wait } := by
  rw [giveLineBack, wait]

theorem giveLineBack_handshake {c : Claim} {s : State} (before : (c.lineBefore = some .off ∧ s.line.enabled = true) ∨
      c.lineBefore = some .handshake ∨ c.lineBefore = some .service) :
    giveLineBack c s = enterHandshake (handshakeAfter c s) := by
  rcases before with ⟨off, enabled⟩ | handshake | service
  · rw [giveLineBack, off]
    simp only [if_pos enabled, leaveOff, handshakeAfter, off]
    rfl
  · simp only [giveLineBack, handshakeAfter, handshake]
    rfl
  · simp only [giveLineBack, handshakeAfter, service]
    rfl

/-- HANDSHAKE is entered anew, and nothing but the line's records and the request of the automatic sequence changes with it
(R45, R174). -/
theorem enterHandshake_after (c : Claim) (s : State) :
    (enterHandshake (handshakeAfter c s)).line.state = .handshake ∧
    (enterHandshake (handshakeAfter c s)).line.handshakeTimer = some 1000 ∧
    (enterHandshake (handshakeAfter c s)).line.attempts =
      (if c.lineBefore = some .handshake then s.line.attempts else 0) ∧
    (enterHandshake (handshakeAfter c s)).framer.trainOut =
      trainingBytes 0x01#8 (flagByte (s.supply.state == .hold)) ∧
    (enterHandshake (handshakeAfter c s)).tester = { s.tester with
      autoPending := if c.lineBefore = some .off then false else s.tester.autoPending } ∧
    enterHandshake (handshakeAfter c s) = { s with
      line := (enterHandshake (handshakeAfter c s)).line
      loader := (enterHandshake (handshakeAfter c s)).loader
      shifts := (enterHandshake (handshakeAfter c s)).shifts
      framer := (enterHandshake (handshakeAfter c s)).framer
      tester := (enterHandshake (handshakeAfter c s)).tester } :=
  ⟨rfl, rfl, rfl, rfl, rfl, rfl⟩

/-! ## TEST_COMPLETE and AUTO_TEST_START (R174, R176, R177) -/

/-- The severity of a verdict, by cases of R142. -/
theorem resultSeverity_eq (k : TestType) (v : Verdict) : resultSeverity k v = (match v, k with
    | .fail, .lineVoltage => .critical
    | .fail, _ => .major
    | .warn, _ => .minor
    | _, _ => .info) := by
  cases v <;> cases k <;> rfl

theorem exec_testComplete_port {c : Claim} {m : Measurement} {s : State} {p : Port} (hs : s.powered = true)
    (claim : s.tester.claim = some c) (ended : c.timer = 0) (port : c.port = some p) (noLine : c.lineBefore = none)
    (manual : c.automatic = false) (onHook : (s.port p).loop = .onHook) : ∃ a n, exec (.testComplete m) s = .next
      (({ s with
        tester := { s.tester with results := resultsAfter c (testValue c.test m) s, claim := none }
        archive := a
        notices := n } : State).setPort p (s.port p).toIdle) := by
  obtain ⟨a, n, done⟩ := testOver_frame c (testValue c.test m) s
  refine ⟨a, n, ?_⟩
  rw [exec_testComplete hs claim ended, completeTest_ends (.inl manual), giveLineBack, noLine, done]
  exact congrArg _ (givePortBack_onHook (s := { s with
    tester := { s.tester with results := resultsAfter c (testValue c.test m) s, claim := none }
    archive := a
    notices := n }) port onHook)

theorem exec_autoTestStart {s : State} (hs : s.powered = true) (pending : s.tester.autoPending = true)
    (wait : s.line.state = .wait) (full : s.supply.state = .full) (free : s.tester.claim = none) :
    exec .autoTestStart s = .next (startSequence s) :=
  exec_of_due (c := .autoTestStart) hs rfl (by simp [autoTestDue, pending, wait, full, free])

theorem startSequence_wait {s : State} (wait : s.line.state = .wait) : startSequence s = { s with
    tester := { s.tester with
      autoPending := false, claim := some ⟨.lineVoltage, none, .internal, false, some .wait, 100, true⟩ }
    line.state := .test } := by
  simp only [startSequence, startTest, takeLine, wait]
  rfl

/-- Settles O52: a test's end tells and writes its result, and the claim says what is given back or handed on. -/
theorem testsRun : Obligations.TestsRun := by
  unfold Obligations.TestsRun
  intro s hs
  refine ⟨fun m c p claim ended port noLine manual onHook _ => ?_, fun m c claim ended noPort _ => ?_,
    fun pending wait full free => ?_⟩
  · obtain ⟨a, n, e⟩ := exec_testComplete_port (m := m) hs claim ended port noLine manual onHook
    refine ⟨_, e, ?_⟩
    have results : resultsAfter c (testValue c.test m) s = s.tester.results.set c.test.index
        ⟨verdictOf c.test (limitsOf s c.test) (testValue c.test m), testValue c.test m, some p, some c.origin,
          s.time.uptime⟩ := by
      rw [resultsAfter, port]
    dsimp only
    rw [← results]
    cases p <;> exact ⟨rfl, rfl, rfl, rfl⟩
  · intro v verdict severity told results
    have told_eq : resultTold c v s = told := by
      simp only [resultTold, reportResult, resultSeverity_eq, noPort, portNumber]
      rfl
    have results_eq : resultsAfter c v s = results := by
      rw [resultsAfter, noPort]
    refine ⟨fun automatic first passed => ?_, fun last => ?_⟩
    · rw [exec_testComplete hs claim ended, completeTest_handsOn automatic first passed, told_eq, results_eq]
    · have ends := exec_testComplete_line (m := m) hs claim ended noPort last
      intro given
      have given_eq : given = testOver c v s := by rw [testOver, told_eq, results_eq]
      have line := testOver_line c v s
      clear_value given
      subst given_eq
      refine ⟨fun off disabled => ?_, fun wait => ?_, fun before => ?_⟩
      · rw [ends, giveLineBack_off off (by rw [line]; exact disabled)]
      · rw [ends, giveLineBack_wait wait]
      · rw [giveLineBack_handshake (by rw [line]; exact before)] at ends
        obtain ⟨state, timer, attempts, out, tester, rest⟩ := enterHandshake_after c (testOver c v s)
        rw [line] at attempts
        rw [testOver_supply] at out
        rw [testOver_tester, results_eq] at tester
        exact ⟨_, ends, state, timer, attempts, out, tester, rest⟩
  · rw [exec_autoTestStart hs pending wait full free, startSequence_wait wait]

end Sys2Proof.Machine
end

section
namespace Sys2Proof.Machine

/-! ## What no notice, service of the list or abort of an erase changes of the archive (R153, R156, R163) -/

/-- The power-on count and the flash array. -/
def Archive.stored (a : Archive) : Nat × List FlashBlock := (a.powerOns, a.flash)

@[simp] theorem foldl_miss_stored (l : List ArchCopy) (a : Archive) : (l.foldl (fun x _ => x.miss) a).stored = a.stored := by
  induction l generalizing a with
  | nil => rfl
  | cons c rest ih => exact ih a.miss

@[simp] theorem Archive.begin_stored (a : Archive) (c : ArchCopy) (b k : Nat) : (a.begin c b k).stored = a.stored := by
  unfold Archive.begin
  dsimp only
  split
  · exact foldl_miss_stored _ _
  · rfl

/-- The program that serving the list begins reaches the flash at its end only (R157). -/
@[simp] theorem Archive.serve_stored (a : Archive) : a.serve.stored = a.stored := by
  rcases a.serve_cases with e | ⟨before, c, after, b, k, -, -, e, -⟩
  · rw [e]
  · rw [e, Archive.begin_stored]
    rfl

theorem Archive.makeCurrent_stored (a : Archive) (i : Nat) : (a.makeCurrent i).stored = a.stored := Archive.serve_stored _

theorem Archive.missMinor_stored (a : Archive) : a.missMinor.stored = a.stored := foldl_miss_stored _ _

theorem Archive.arrive_stored (a : Archive) (c : ArchCopy) : (a.arrive c).stored = a.stored := by
  unfold Archive.arrive
  dsimp only
  split
  · rfl
  · split
    · rfl
    · split
      · exact Archive.serve_stored _
      · split
        · exact Archive.serve_stored _
        · rfl

theorem raise_stored (cls : NoticeClass) (sev : Severity) (code : NoticeCode) (ps : List Int) (s : State) :
    (raise cls sev code ps s).archive.stored = s.archive.stored := by
  rw [raise_archive]
  unfold copyToArchive
  split
  · exact Archive.arrive_stored _ _
  · rfl

/-- In DORMANT the rotation step begins no erase, so that no block loses its bytes (R160, R163). -/
theorem rotate_stored {s : State} (dormant : s.supply.state = .dormant) :
    (rotate s).archive.stored = s.archive.stored := by
  unfold rotate
  dsimp only
  split
  · rfl
  · split
    · rfl
    · split
      · split
        · rfl
        · exact Archive.makeCurrent_stored _ _
      · split
        · rw [if_neg (by simp [dormant])]
        · split
          · exact Archive.missMinor_stored _
          · exact (raise_stored _ _ _ _ _).trans (Archive.missMinor_stored _)

theorem abortErase_stored {s : State} (dormant : s.supply.state = .dormant) :
    (abortErase s).archive.stored = s.archive.stored := by
  unfold abortErase
  split
  · rfl
  · dsimp only
    split
    · rfl
    · exact (rotate_stored (s := { s with archive := Archive.serve _ }) dormant).trans (Archive.serve_stored _)

/-! ## What the steps that end a restart leave (R179, R185, R193, R194) -/

/-- The parts of a state that what follows the reset of the blocks leaves as they are: time, the management unit, the overhead
channel, the data queues and the home delivery buffer, the Factory Store, what the archive has stored and the Performance
Monitor. -/
def State.steady (s : State) :=
  (s.time, s.mgmt, s.overhead, (s.data.priority, s.data.bulk, s.data.buffer), s.factory, s.archive.stored, s.perf)

theorem kickHome_steady (s : State) : (kickHome s).steady = s.steady := by
  have queues := kickHome_queues s
  obtain ⟨d, e⟩ := kickHome_frame s
  rw [e] at queues ⊢
  obtain ⟨priority, bulk, buffer⟩ : d.priority = s.data.priority ∧ d.bulk = s.data.bulk ∧ d.buffer = s.data.buffer := queues
  simp only [State.steady, priority, bulk, buffer]

theorem raise_steady (cls : NoticeClass) (sev : Severity) (code : NoticeCode) (ps : List Int) (s : State) :
    (raise cls sev code ps s).steady = s.steady := by
  have stored := raise_stored cls sev code ps s
  obtain ⟨a, n, e⟩ := raise_frame cls sev code ps s
  rw [e] at stored ⊢
  simp only [State.steady, stored]

theorem announce_steady (kind : Int) (s : State) : (announce kind s).steady = s.steady := by
  unfold announce
  dsimp only
  split
  · exact (raise_steady _ _ _ _ _).trans (raise_steady _ _ _ _ _)
  · exact raise_steady _ _ _ _ _

theorem announce_frame (kind : Int) (s : State) : ∃ a n, announce kind s = { s with archive := a, notices := n } := by
  obtain ⟨a, n, e⟩ := raise_frame .system .info .started [kind, (s.archive.powerOns : Int)] s
  unfold announce
  dsimp only
  rw [e]
  split
  · exact raise_frame .archive .minor .factoryBlank _ { s with archive := a, notices := n }
  · exact ⟨a, n, rfl⟩

theorem abortErase_steady {s : State} (dormant : s.supply.state = .dormant) : (abortErase s).steady = s.steady := by
  have stored := abortErase_stored dormant
  obtain ⟨a, n, e⟩ := abortErase_frame s
  rw [e] at stored ⊢
  simp only [State.steady, stored]

theorem emptyQueues_steady {s : State} (noPriority : s.data.priority = []) (noBulk : s.data.bulk = []) :
    (emptyQueues s).steady = s.steady := by
  obtain ⟨d, e, priority, bulk, buffer⟩ := emptyQueues_frame s
  rw [e]
  simp only [State.steady, priority, bulk, buffer, noPriority, noBulk]

theorem wakeIfReturning_steady (s : State) : (wakeIfReturning s).steady = s.steady := by
  obtain ⟨r, n, e⟩ := wakeIfReturning_frame s
  rw [e]
  rfl

theorem startLine_steady (s : State) : (startLine s).steady = s.steady := by
  unfold startLine
  split <;> rfl

/-- A part whose line is OFF, with no test and no data frame: that is what the reset of the blocks leaves (R194). -/
structure Quiet (s : State) : Prop where
  line : s.line.state = .off
  claim : s.tester.claim = none
  priority : s.data.priority = []
  bulk : s.data.bulk = []

theorem enterDormant_steady {s : State} (quiet : Quiet s) : (enterDormant s).steady = s.steady := by
  obtain ⟨h, allowed⟩ := setAllowance_frame 0 { s with supply := s.supply.asleep }
  rw [enterDormant_eq, lineToOff_off .dormant (s := { s with supply := s.supply.asleep }) quiet.line, allowed,
    abortTest_none (s := { s with supply := s.supply.asleep, handset := h }) quiet.claim, wakeIfReturning_steady]
  have asleep : ({ s with supply := s.supply.asleep, handset := h } : State).steady = s.steady := rfl
  have erased := abortErase_steady (s := { s with supply := s.supply.asleep, handset := h }) rfl
  obtain ⟨a, n, aborted⟩ := abortErase_frame { s with supply := s.supply.asleep, handset := h }
  rw [aborted] at erased ⊢
  exact (emptyQueues_steady (s := { s with supply := s.supply.asleep, handset := h, archive := a, notices := n })
    quiet.priority quiet.bulk).trans (erased.trans asleep)

theorem endHold_steady {s : State} (quiet : Quiet s) : (endHold s).steady = s.steady := by
  unfold endHold
  split
  · exact enterDormant_steady quiet
  · rfl

/-- From a quiet state, the end of the restart leaves the parts named in `State.steady`. -/
theorem restartEnd_steady {s : State} (quiet : Quiet s) :
    (startLine (endHold (announce 1 (kickHome s)))).steady = s.steady := by
  have queues := kickHome_queues s
  have kicked := (announce_steady 1 (kickHome s)).trans (kickHome_steady s)
  obtain ⟨d, e⟩ := kickHome_frame s
  rw [e] at queues kicked ⊢
  obtain ⟨priority, bulk, -⟩ := queues
  have told : Quiet (announce 1 { s with data := d }) := by
    obtain ⟨a, n, e⟩ := announce_frame 1 { s with data := d }
    rw [e]
    exact ⟨quiet.line, quiet.claim, priority.trans quiet.priority, bulk.trans quiet.bulk⟩
  exact ((startLine_steady _).trans (endHold_steady told)).trans kicked

/-! ## RESTART_TAKES_EFFECT (R137, R194) -/

theorem restartedState_quiet (origin : Channel) (s : State) : Quiet (restartedState origin s) := ⟨rfl, rfl, rfl, rfl⟩

theorem abortSilently_frame (s : State) : ∃ x, abortSilently s = { s with tester := x } := by
  unfold abortSilently
  split
  · exact ⟨_, rfl⟩
  · exact ⟨s.tester, rfl⟩

/-- The state that the reset of the blocks leaves, the interval in progress closed with the partial flag (R137, R194). -/
theorem restartNow_steady (origin : Channel) (s : State) :
    (restartNow origin s).steady = (restartedState origin (closeInterval true s)).steady := by
  obtain ⟨x, e⟩ := abortSilently_frame (closeInterval true s)
  have ended := restartEnd_steady (restartedState_quiet origin (abortSilently (closeInterval true s)))
  rw [e] at ended
  unfold restartNow
  dsimp only
  rw [e]
  exact ended

/-- The newest entry of the ring is the interval that has just closed (R137). -/
theorem appendInterval_getLast? (ring : List Interval) (e : Interval) : (appendInterval ring e).getLast? = some e := by
  unfold appendInterval
  dsimp only
  rw [List.getLast?_drop, if_neg (by rw [List.length_append, List.length_singleton]; omega), List.getLast?_concat]

theorem exec_restartTakesEffect {s : State} {r : PendingRestart} (hs : s.powered = true) (pending : s.mgmt.restart = some r)
    (due : r.unsent = 0 ∨ r.timer = 0) (noProgram : s.factory.programming = none) :
    exec .restartTakesEffect s = .next (restartNow r.origin s) := by
  have now : restartDue s = true := by simpa [restartDue, pending, noProgram] using due
  rw [exec_of_due (c := .restartTakesEffect) hs rfl now, pending]

/-- Settles O9: the interval is closed and the blocks are reset, and what follows changes none of the parts named. -/
theorem restartTakesEffect : Obligations.RestartTakesEffect := by
  unfold Obligations.RestartTakesEffect
  intro s r hs pending due noProgram
  refine ⟨_, exec_restartTakesEffect hs pending due noProgram, ?_⟩
  have steady := restartNow_steady r.origin s
  simp only [State.steady, Archive.stored, Prod.mk.injEq] at steady
  obtain ⟨time, mgmt, overhead, ⟨priority, bulk, buffer⟩, factory, ⟨powerOns, flash⟩, perf⟩ := steady
  dsimp only
  rw [time, mgmt, overhead, priority, bulk, buffer, factory, powerOns, flash, perf]
  exact ⟨rfl, rfl, rfl, rfl, rfl, rfl, rfl, rfl, rfl, rfl, rfl, rfl, appendInterval_getLast? _ _, rfl, rfl, rfl, rfl⟩

end Sys2Proof.Machine
end

section
namespace Sys2Proof.Machine

/-! ## The archive's own operations keep the canonical form (R150, R157) -/

/-- The law speaks of the flash array and of the program in progress alone. -/
theorem FlashLaw.of_stored {a b : Archive} (h : FlashLaw a) (flash : b.flash = a.flash)
    (aimed : ∀ p, b.program = some p → p.slot < 128) : FlashLaw b :=
  ⟨flash ▸ h.blocks, flash ▸ h.form, aimed⟩

theorem FlashLaw.same {a b : Archive} (h : FlashLaw a) (flash : b.flash = a.flash) (program : b.program = a.program) :
    FlashLaw b := h.of_stored flash (program ▸ h.aimed)

/-- With no program left there is no aim to keep. -/
theorem FlashLaw.unaimed {a b : Archive} (h : FlashLaw a) (flash : b.flash = a.flash) (program : b.program = none) :
    FlashLaw b := h.of_stored flash (by simp [program])

/-- A change of one block that keeps the block's form keeps the law. -/
theorem FlashLaw.setBlock {a : Archive} (h : FlashLaw a) (i : Nat) {f : FlashBlock → FlashBlock}
    (hf : ∀ b, b.wf = true → (f b).wf = true) : FlashLaw (a.setBlock i f) :=
  ⟨(a.setBlock_length i f).trans h.blocks, a.setBlock_wf i f h.form hf, h.aimed⟩

theorem FlashLaw.writeSlot {a : Archive} (h : FlashLaw a) (i : Nat) {k : Nat} (hk : k < 128) (img : SlotImage) :
    FlashLaw (a.setBlock i fun b => b.write k img) :=
  h.setBlock i fun b hb => b.write_wf k img hk hb

theorem FlashLaw.clearBlock {a : Archive} (h : FlashLaw a) (i : Nat) (hd : Option Header) :
    FlashLaw (a.setBlock i fun _ => ⟨hd, []⟩) :=
  h.setBlock i fun _ _ => FlashBlock.blank_wf hd

theorem foldl_miss_program (l : List ArchCopy) (a : Archive) : (l.foldl (fun x _ => x.miss) a).program = a.program := by
  induction l generalizing a with
  | nil => rfl
  | cons c rest ih => exact ih a.miss

theorem foldl_miss_flashLaw (l : List ArchCopy) {a : Archive} (h : FlashLaw a) : FlashLaw (l.foldl (fun x _ => x.miss) a) :=
  h.same (congrArg Prod.snd (foldl_miss_stored l a)) (foldl_miss_program l a)

/-- A slot the block table offers is one of the 128 of its block (R150, R156). -/
theorem Archive.offers_slot {a : Archive} {sev : Severity} {b k : Nat} (h : a.offers sev = some (b, k)) : k < 128 := by
  unfold Archive.offers at h
  split at h
  · split at h
    · cases h
      omega
    · cases h
  · split at h
    · split at h
      · split at h
        · cases h
          assumption
        · cases h
      · cases h
    · cases h

theorem Archive.begin_flashLaw {a : Archive} (h : FlashLaw a) (c : ArchCopy) (b : Nat) {k : Nat} (hk : k < 128) :
    FlashLaw (a.begin c b k) := by
  have aimed : ∀ r p, some (⟨b, k, r, 1⟩ : Program) = some p → p.slot < 128 := by
    rintro r p ⟨⟩
    exact hk
  unfold Archive.begin
  dsimp only
  split
  · exact foldl_miss_flashLaw _ (h.of_stored rfl (aimed _))
  · exact h.of_stored rfl (aimed _)

theorem Archive.serve_flashLaw {a : Archive} (h : FlashLaw a) : FlashLaw a.serve := by
  rcases a.serve_cases with e | ⟨before, c, after, b, k, -, offered, e, -⟩
  · rwa [e]
  · rw [e]
    refine Archive.begin_flashLaw ?_ c b (Archive.offers_slot offered)
    exact h.same rfl rfl

theorem Archive.arrive_flashLaw {a : Archive} (h : FlashLaw a) (c : ArchCopy) : FlashLaw (a.arrive c) := by
  unfold Archive.arrive
  dsimp only
  split
  · exact h.same rfl rfl
  · split
    · exact h.same rfl rfl
    · split
      · exact Archive.serve_flashLaw (h.same rfl rfl)
      · split
        · exact Archive.serve_flashLaw (h.same rfl rfl)
        · exact h.same rfl rfl

theorem Archive.beginErase_flashLaw {a : Archive} (h : FlashLaw a) (b : Nat) (o : Origin) : FlashLaw (a.beginErase b o) := by
  unfold Archive.beginErase
  exact Archive.serve_flashLaw ((h.clearBlock b none).same rfl rfl)

theorem Archive.makeCurrent_flashLaw {a : Archive} (h : FlashLaw a) (i : Nat) : FlashLaw (a.makeCurrent i) :=
  Archive.serve_flashLaw (h.same rfl rfl)

theorem Archive.missMinor_flashLaw {a : Archive} (h : FlashLaw a) : FlashLaw a.missMinor :=
  foldl_miss_flashLaw _ (h.same rfl rfl)

theorem Archive.tick_flashLaw {a : Archive} (h : FlashLaw a) : FlashLaw a.tick := by
  refine h.of_stored rfl fun p hp => ?_
  obtain ⟨q, hq, rfl⟩ := Option.map_eq_some_iff.mp hp
  exact h.aimed q hq

/-- The power-on scan takes the flash array as it is (R167). -/
theorem scanFlash_flashLaw {flash : List FlashBlock} (blocks : flash.length = 4) (form : ∀ b ∈ flash, b.wf = true) :
    FlashLaw (scanFlash flash) := ⟨blocks, form, nofun⟩

/-! ## Notices, rotation and the flash operations keep the law -/

@[simp] theorem raise_flashLaw (cls : NoticeClass) (sev : Severity) (code : NoticeCode) (ps : List Int) {s : State}
    (h : FlashLaw s.archive) : FlashLaw (raise cls sev code ps s).archive := by
  rw [raise_archive]
  unfold copyToArchive
  split
  · exact Archive.arrive_flashLaw h _
  · exact h

@[simp] theorem rotate_flashLaw {s : State} (h : FlashLaw s.archive) : FlashLaw (rotate s).archive := by
  unfold rotate
  dsimp only
  split
  · exact h
  · split
    · exact h
    · split
      · split
        · exact h
        · exact Archive.makeCurrent_flashLaw h _
      · split
        · split
          · exact Archive.beginErase_flashLaw h _ _
          · exact h
        · have missed := Archive.missMinor_flashLaw h
          split
          · exact missed.same rfl rfl
          · exact raise_flashLaw _ _ _ _ (missed.same rfl rfl)

@[simp] theorem archiveReady_flashLaw {s : State} (h : FlashLaw s.archive) : FlashLaw (archiveReady s).archive :=
  rotate_flashLaw (s := { s with archive := s.archive.serve }) (Archive.serve_flashLaw h)

@[simp] theorem abortErase_flashLaw {s : State} (h : FlashLaw s.archive) : FlashLaw (abortErase s).archive := by
  unfold abortErase
  split
  · exact h
  · dsimp only
    split
    · exact h.same rfl rfl
    · exact archiveReady_flashLaw (h.same rfl rfl)

@[simp] theorem fullIfLast_flashLaw (p : Program) {s : State} (h : FlashLaw s.archive) : FlashLaw (fullIfLast p s).archive := by
  unfold fullIfLast
  dsimp only
  split
  · exact rotate_flashLaw (h.same rfl rfl)
  · exact h

theorem programCompletes_flashLaw {p : Program} {s : State} (h : FlashLaw s.archive) (aimed : p.slot < 128) :
    FlashLaw (programCompletes p s).archive := by
  have written := h.writeSlot p.block aimed (.record p.record)
  unfold programCompletes
  dsimp only
  split
  · dsimp only
    refine Archive.serve_flashLaw ?_
    refine FlashLaw.same (fullIfLast_flashLaw p ?_) rfl rfl
    exact written.unaimed rfl rfl
  · exact archiveReady_flashLaw (fullIfLast_flashLaw p (written.unaimed rfl rfl))

theorem Archive.abandonErase_flash (a : Archive) : a.abandonErase.flash = a.flash := by
  unfold Archive.abandonErase
  split <;> rfl

theorem programFails_flashLaw {p : Program} {s : State} (h : FlashLaw s.archive) (aimed : p.slot < 128) :
    FlashLaw (programFails p s).archive := by
  have written := h.writeSlot p.block aimed .damaged
  unfold programFails
  refine fullIfLast_flashLaw p (raise_flashLaw _ _ _ _ ?_)
  exact written.unaimed (Archive.abandonErase_flash _) rfl

@[simp] theorem eraseCompletes_flashLaw (e : Erase) {s : State} (h : FlashLaw s.archive) :
    FlashLaw (eraseCompletes e s).archive := by
  have headed := h.clearBlock e.block (some ⟨s.archive.blockSequence, satInc 65535 (s.archive.entry e.block).eraseCount⟩)
  unfold eraseCompletes
  dsimp only
  split
  · refine archiveReady_flashLaw ?_
    dsimp only
    refine Archive.makeCurrent_flashLaw ?_ _
    exact headed.same rfl rfl
  · refine archiveReady_flashLaw (raise_flashLaw _ _ _ _ ?_)
    exact headed.same rfl rfl

@[simp] theorem eraseFails_flashLaw (e : Erase) {s : State} (h : FlashLaw s.archive) : FlashLaw (eraseFails e s).archive :=
  raise_flashLaw _ _ _ _ (h.same rfl rfl)

/-- The flash array as a loss of power leaves it (R163). -/
def Archive.cut (a : Archive) : Archive :=
  let b := match a.program with
    | some p => a.setBlock p.block fun b => b.write p.slot .damaged
    | none => a
  match b.erase with
  | some e => b.setBlock e.block fun x => { x with header := none }
  | none => b

theorem Archive.cut_flashLaw {a : Archive} (h : FlashLaw a) : FlashLaw a.cut := by
  have headless {b : Archive} (hb : FlashLaw b) (i : Nat) : FlashLaw (b.setBlock i fun x => { x with header := none }) :=
    hb.setBlock i fun _ form => form
  have spoiled : FlashLaw (match a.program with
      | some p => a.setBlock p.block fun b => b.write p.slot .damaged
      | none => a) := by
    split
    · exact h.writeSlot _ (h.aimed _ ‹_›) .damaged
    · exact h
  unfold Archive.cut
  dsimp only
  split
  · exact headless spoiled _
  · exact spoiled

theorem losePower_archive (s : State) : (losePower s).archive = scanFlash s.archive.cut.flash := rfl

@[simp] theorem losePower_flashLaw {s : State} (h : FlashLaw s.archive) : FlashLaw (losePower s).archive := by
  have cut := Archive.cut_flashLaw h
  rw [losePower_archive]
  exact scanFlash_flashLaw cut.blocks cut.form

/-! ## The state's operations that leave the archive as it is -/

@[simp] theorem archive_ite (c : Prop) [Decidable c] (s t : State) :
    (if c then s else t).archive = if c then s.archive else t.archive := apply_ite ..

@[simp] theorem served_ite (c : Prop) [Decidable c] (x y : Served) : (if c then x else y).1 = if c then x.1 else y.1 :=
  apply_ite ..

section
variable (s : State)

@[simp] theorem onPorts_archive (f : PortRec → PortRec) : (onPorts f s).archive = s.archive := by simp [onPorts]

@[simp] theorem answered_fst (r : Result) : (answered r s).1 = s := by simp [answered]

@[simp] theorem doneOr_fst (clamped : Bool) : (doneOr clamped s).1 = s := by simp [doneOr]

@[simp] theorem reported_fst (ch : Channel) (r : Result) (fs : List Field) : (reported ch r fs s).1 = s := by
  simp [reported]

/-! ### Notices and counts (R135, R143, R146) -/

@[simp] theorem returnNotice_archive (o : Outlet) (x : Notice) : (returnNotice o x s).archive = s.archive := by
  obtain ⟨n, e⟩ := returnNotice_frame o x s
  rw [e]

/-! ### The overhead channel and the home link (R12 to R15, R126, R129, R191) -/

@[simp] theorem offer_archive (m : Msg) : (offer m s).archive = s.archive := by
  obtain ⟨o, n, g, e⟩ := offer_frame m s
  rw [e]

@[simp] theorem withdraw_archive (p : Msg → Bool) : (withdraw p s).archive = s.archive := by simp [withdraw]

@[simp] theorem fillRooms_archive (n : Nat) : (fillRooms n s).archive = s.archive := by
  obtain ⟨o, n, g, e⟩ := fillRooms_frame n s
  rw [e]

@[simp] theorem arbitrate_archive : (arbitrate s).archive = s.archive := by
  unfold arbitrate
  split
  · simp
  · split <;> simp

@[simp] theorem stopOverhead_archive : (stopOverhead s).archive = s.archive := by
  obtain ⟨o, n, g, e⟩ := stopOverhead_frame s
  rw [e]

@[simp] theorem kickHome_archive : (kickHome s).archive = s.archive := by
  obtain ⟨d, e⟩ := kickHome_frame s
  rw [e]

@[simp] theorem duePause_archive (p : Pause) : (duePause p s).archive = s.archive := by simp [duePause]

@[simp] theorem judgeFlow_archive : (judgeFlow s).archive = s.archive := by
  obtain ⟨d, e⟩ := judgeFlow_frame s
  rw [e]

@[simp] theorem putHome_archive (f : HomeFrame) : (putHome f s).archive = s.archive := by simp [putHome]

@[simp] theorem offerHomeResponses_archive (n : Nat) : (offerHomeResponses n s).archive = s.archive := by
  obtain ⟨d, g, e⟩ := offerHomeResponses_frame n s
  rw [e]

@[simp] theorem placeHomeNotice_archive : (placeHomeNotice s).archive = s.archive := by
  unfold placeHomeNotice
  split <;> simp

@[simp] theorem offerOverheadResponses_archive (n : Nat) : (offerOverheadResponses n s).archive = s.archive := by
  obtain ⟨o, g, e⟩ := offerOverheadResponses_frame n s
  rw [e]

@[simp] theorem onChan_archive (ch : Channel) (f : Chan → Chan) : (onChan ch f s).archive = s.archive := by
  unfold onChan
  split <;> simp

@[simp] theorem addResponse_archive (ch : Channel) (r : Response) : (addResponse ch r s).archive = s.archive := by
  unfold addResponse
  split <;> simp

@[simp] theorem restartDoneSent_archive (r : Response) : (restartDoneSent r s).archive = s.archive := by
  unfold restartDoneSent
  split <;> simp

/-! ### Calls, ports and slots (R81 to R115) -/

@[simp] theorem recompute_archive : (recompute s).archive = s.archive := by simp [recompute]

@[simp] theorem takeWake_archive (why : WakeReason) : (takeWake why s).archive = s.archive := by simp [takeWake]

@[simp] theorem reportPortWake_archive (p : Port) : (reportPortWake p s).archive = s.archive := by simp [reportPortWake]

@[simp] theorem markReleased_archive (k : Slot) : (markReleased k s).archive = s.archive := by simp [markReleased]

@[simp] theorem releaseWith_archive (k : Slot) (why : ReleaseReason) : (releaseWith k why s).archive = s.archive := by
  obtain ⟨x, o, n, g, e⟩ := releaseWith_frame k why s
  rw [e]

@[simp] theorem portOnHook_archive (p : Port) : (portOnHook p s).archive = s.archive := by
  unfold portOnHook
  dsimp only
  cases (s.port p).slot <;> split <;> simp

@[simp] theorem handItem_archive (p : Port) (x : DialItem) : (handItem p x s).archive = s.archive := by
  unfold handItem
  split <;> simp

@[simp] theorem completeDigit_archive (p : Port) : (completeDigit p s).archive = s.archive := by simp [completeDigit]

@[simp] theorem sendDigits_archive (p : Port) (l : List DialItem) : (sendDigits p l s).archive = s.archive := by
  induction l generalizing s with
  | nil => rfl
  | cons x rest ih => exact (ih _).trans (handItem_archive s p x)

@[simp] theorem endOrder_archive (k : Slot) : (endOrder k s).archive = s.archive := by simp [endOrder]

@[simp] theorem ringTrip_archive (p : Port) : (ringTrip p s).archive = s.archive := by
  unfold ringTrip
  dsimp only
  split <;> simp

@[simp] theorem grantUnits_archive (start1 start2 : Bool) :
    (grantUnits start1 start2 s).archive = s.archive := by simp [grantUnits]

@[simp] theorem endPhases_archive : (endPhases s).archive = s.archive := by simp [endPhases]

@[simp] theorem beginPhases_archive : (beginPhases s).archive = s.archive := by simp [beginPhases]

@[simp] theorem setAllowance_archive (n : Nat) : (setAllowance n s).archive = s.archive := by simp [setAllowance]

@[simp] theorem localVoice_archive : (localVoice s).archive = s.archive := by simp [localVoice]

@[simp] theorem restOfVoice_archive : (restOfVoice s).archive = s.archive := by simp [restOfVoice]

@[simp] theorem freeReleased_archive : (freeReleased s).archive = s.archive := by simp [freeReleased]

@[simp] theorem freeAllSlots_archive : (freeAllSlots s).archive = s.archive := by simp [freeAllSlots]

/-! ### The second in progress (R133, R134) -/

@[simp] theorem emptySecond_archive : (emptySecond s).archive = s.archive := by simp [emptySecond]

/-! ### The loading pass (R27 to R31) -/

@[simp] theorem requestPass_archive (training : Bool) : (requestPass training s).archive = s.archive := by
  unfold requestPass
  split <;> simp

/-! ### The line between its states, tests and the supply (R43 to R55, R174, R182 to R187) -/

@[simp] theorem endAttempt_archive : (endAttempt s).archive = s.archive := by simp [endAttempt]

@[simp] theorem enterHandshake_archive : (enterHandshake s).archive = s.archive := by simp [enterHandshake]

@[simp] theorem leaveOff_archive : (leaveOff s).archive = s.archive := by simp [leaveOff]

@[simp] theorem writeResult_archive (c : Claim) (v : Verdict) (value : Int) :
    (writeResult c v value s).archive = s.archive := by simp [writeResult]

@[simp] theorem giveLineBack_archive (c : Claim) : (giveLineBack c s).archive = s.archive := by
  unfold giveLineBack
  split <;> simp

@[simp] theorem emptyQueues_archive : (emptyQueues s).archive = s.archive := by simp [emptyQueues]

@[simp] theorem wakeIfReturning_archive : (wakeIfReturning s).archive = s.archive := by simp [wakeIfReturning]

@[simp] theorem supplyShiftDue_archive : (supplyShiftDue s).archive = s.archive := by simp [supplyShiftDue]

@[simp] theorem enterFull_archive : (enterFull s).archive = s.archive := by simp [enterFull]

/-! ### Power-on and restart (R193, R194) -/

@[simp] theorem startLine_archive : (startLine s).archive = s.archive := by simp [startLine]

@[simp] theorem closeInterval_archive (partialFlag : Bool) :
    (closeInterval partialFlag s).archive = s.archive := by simp [closeInterval]

@[simp] theorem abortSilently_archive : (abortSilently s).archive = s.archive := by
  unfold abortSilently
  split <;> simp

/-! ### The cycle and second boundaries (R1, R2, R134) -/

@[simp] theorem sampleCycle_archive (samples : List Int) :
    (sampleCycle samples s).archive = s.archive := by simp [sampleCycle]

@[simp] theorem judgeCycle_archive (energy nominal : Nat) :
    (judgeCycle energy nominal s).archive = s.archive := by simp [judgeCycle]

@[simp] theorem tickCycle_archive : (tickCycle s).archive = s.archive := by simp [tickCycle]

@[simp] theorem orderSwap_archive : (orderSwap s).archive = s.archive := by
  unfold orderSwap
  split
  · split <;> simp
  · simp

@[simp] theorem startRings_archive : (startRings s).archive = s.archive := by simp [startRings]

@[simp] theorem offLineVoice_archive : (offLineVoice s).archive = s.archive := by
  unfold offLineVoice
  split <;> simp

@[simp] theorem intervalEnds_archive : (intervalEnds s).archive = s.archive := by simp [intervalEnds]

/-! ### Training (R42 to R50) -/

@[simp] theorem sendTraining_archive (m : TrainMsg) : (sendTraining m s).archive = s.archive := by
  unfold sendTraining
  split <;> simp

@[simp] theorem takeReply_archive (credit count probeStart : Nat) :
    (takeReply credit count probeStart s).archive = s.archive := by simp [takeReply]

@[simp] theorem enterProbe_archive : (enterProbe s).archive = s.archive := by simp [enterProbe]

@[simp] theorem readyWhenBoth_archive (before : List Byte) :
    (readyWhenBoth before s).archive = s.archive := by simp [readyWhenBoth]

@[simp] theorem acceptEntry_archive (count : Nat) : (acceptEntry count s).archive = s.archive := by simp [acceptEntry]

/-! ### Rate shifts and tone swaps (R57 to R62, R36, R37) -/

@[simp] theorem startShift_archive (k : ShiftKind) : (startShift k s).archive = s.archive := by simp [startShift]

@[simp] theorem startWaiting_archive : (startWaiting s).archive = s.archive := by simp [startWaiting]

@[simp] theorem takeWithdraw_archive : (takeWithdraw s).archive = s.archive := by simp [takeWithdraw]

@[simp] theorem takeSwapAck_archive : (takeSwapAck s).archive = s.archive := by
  unfold takeSwapAck
  split <;> simp

@[simp] theorem holdTone_archive (tone : Nat) : (holdTone tone s).archive = s.archive := by simp [holdTone]

@[simp] theorem takeSwapReject_archive (_reason : Nat) : (takeSwapReject _reason s).archive = s.archive := by
  unfold takeSwapReject
  split <;> simp

@[simp] theorem swapWaitEnds_archive : (swapWaitEnds s).archive = s.archive := by
  unfold swapWaitEnds
  split <;> simp

@[simp] theorem holdEnds_archive (tone : Nat) : (holdEnds tone s).archive = s.archive := by simp [holdEnds]

/-! ### Impulse noise (R70 to R77) -/

@[simp] theorem withdrawSchedule_archive (inForce : Bool) :
    (withdrawSchedule inForce s).archive = s.archive := by simp [withdrawSchedule]

@[simp] theorem cancelDown_archive : (cancelDown s).archive = s.archive := by simp [cancelDown]

@[simp] theorem endDownWindows_archive : (endDownWindows s).archive = s.archive := by simp [endDownWindows]

@[simp] theorem offerSchedule_archive : (offerSchedule s).archive = s.archive := by
  unfold offerSchedule
  split <;> simp

@[simp] theorem scheduleSent_archive (c : Nat) : (scheduleSent c s).archive = s.archive := by
  unfold scheduleSent
  split <;> simp

@[simp] theorem takeCancel_archive (dir : Dir) : (takeCancel dir s).archive = s.archive := by
  unfold takeCancel
  split <;> simp

/-! ### The loop timers (R81 to R83) -/

@[simp] theorem completeIfAny_archive (p : Port) : (completeIfAny p s).archive = s.archive := by simp [completeIfAny]

@[simp] theorem takeFlash_archive (p : Port) : (takeFlash p s).archive = s.archive := by simp [takeFlash]

@[simp] theorem goOnHook_archive (p : Port) : (goOnHook p s).archive = s.archive := by simp [goOnHook]

@[simp] theorem endUnanswered_archive (order : Nat) (k : Slot) :
    (endUnanswered order k s).archive = s.archive := by simp [endUnanswered]

/-! ### The voice slots (R109 to R113) -/

@[simp] theorem refuseParty_archive (k : Slot) (why : Refused) : (refuseParty k why s).archive = s.archive := by
  unfold refuseParty
  split <;> simp

@[simp] theorem seizureTimesOut_archive (k : Slot) : (seizureTimesOut k s).archive = s.archive := by simp [seizureTimesOut]

@[simp] theorem dropStale_archive (k : Slot) : (dropStale k s).archive = s.archive := by simp [dropStale]

@[simp] theorem connectPort_archive (p : Port) : (connectPort p s).archive = s.archive := by simp [connectPort]

@[simp] theorem takeSeizeAck_archive (k : Slot) : (takeSeizeAck k s).archive = s.archive := by
  cases party : (s.slot k).port? <;> simp [takeSeizeAck, party]

@[simp] theorem takeSeizeNak_archive (k : Slot) : (takeSeizeNak k s).archive = s.archive := by simp [takeSeizeNak]

@[simp] theorem takeRelease_archive (k : Slot) (_reason : Nat) :
    (takeRelease k _reason s).archive = s.archive := by simp [takeRelease]

@[simp] theorem ringPorts_archive (k : Slot) (order limit : Nat) (pairs : List (Nat × Nat)) (ports : List Port) :
    (ringPorts k order limit pairs ports s).archive = s.archive := by
  induction ports generalizing s with
  | nil => rfl
  | cons p rest ih => exact (ih _).trans (onPort_archive s p _)

@[simp] theorem takeRingStop_archive (order : Nat) : (takeRingStop order s).archive = s.archive := by
  unfold takeRingStop
  split <;> simp

/-! ### Requests arriving and home frames (R120 to R129, R190) -/

@[simp] theorem queueRequest_archive (ch : Channel) (bytes addr : List Byte) :
    (queueRequest ch bytes addr s).archive = s.archive := by simp [queueRequest]

@[simp] theorem takeManagement_archive (frame : List Byte) :
    (takeManagement frame s).archive = s.archive := by simp [takeManagement]

@[simp] theorem placeHomeNotices_archive (n : Nat) : (placeHomeNotices n s).archive = s.archive := by
  obtain ⟨d, n, e⟩ := placeHomeNotices_frame n s
  rw [e]

@[simp] theorem linkComesUp_archive : (linkComesUp s).archive = s.archive := by simp [linkComesUp]

@[simp] theorem repeatPause_archive : (repeatPause s).archive = s.archive := by simp [repeatPause]

@[simp] theorem headSent_archive : (headSent s).archive = s.archive := by
  unfold headSent
  split
  · simp
  · split <;> simp

@[simp] theorem frameGap_archive : (frameGap s).archive = s.archive := by
  unfold frameGap
  split <;> simp

@[simp] theorem fillHome_archive (noticeFirst : Bool) : (fillHome noticeFirst s).archive = s.archive := by simp [fillHome]

/-! ### The supply (R180 to R187) -/

@[simp] theorem mainsAppears_archive : (mainsAppears s).archive = s.archive := by simp [mainsAppears]

/-! ### Requests (Chapter 12) -/

@[simp] theorem serveReadTones_archive (ch : Channel) (dir : Dir) (bank : BankSel) (first last : Int) :
    (serveReadTones ch dir bank first last s).1.archive = s.archive := by simp [serveReadTones]

@[simp] theorem serveSearchTones_archive (ch : Channel) (dir : Dir) (p : TonePattern) (limit : Int) :
    (serveSearchTones ch dir p limit s).1.archive = s.archive := by simp [serveSearchTones]

@[simp] theorem serveReadPort_archive (ch : Channel) (port : Int) : (serveReadPort ch port s).1.archive = s.archive := by
  unfold serveReadPort
  split <;> simp

@[simp] theorem serveReadIntervals_archive (ch : Channel) (first count : Int) :
    (serveReadIntervals ch first count s).1.archive = s.archive := by simp [serveReadIntervals]

@[simp] theorem serveReadArchive_archive (ch : Channel) (first count : Int) :
    (serveReadArchive ch first count s).1.archive = s.archive := by simp [serveReadArchive]

@[simp] theorem writeCaps_archive (dir : Dir) (sel : Nat → Bool) (fn : ToneFn) (value : Int) :
    (writeCaps dir sel fn value s).archive = s.archive := by simp [writeCaps]

@[simp] theorem writeStates_archive (dir : Dir) (sel : Nat → Bool) (st : ToneState) :
    (writeStates dir sel st s).archive = s.archive := by simp [writeStates]

@[simp] theorem serveWriteTones_archive (dir : Dir) (first last stride : Int) (field : ToneField) (fn : ToneFn)
    (value : Int) : (serveWriteTones dir first last stride field fn value s).1.archive = s.archive := by
  unfold serveWriteTones
  split
  · simp
  · split
    · simp
    · split <;> simp

@[simp] theorem enableLine_archive : (enableLine s).archive = s.archive := by simp [enableLine]

@[simp] theorem serveSetMargins_archive (r d m u : Int) :
    (serveSetMargins r d m u s).1.archive = s.archive := by simp [serveSetMargins]

@[simp] theorem serveStepMargin_archive (way : StepWay) :
    (serveStepMargin way s).1.archive = s.archive := by simp [serveStepMargin]

@[simp] theorem serveSetHoldCeiling_archive (tone : Int) :
    (serveSetHoldCeiling tone s).1.archive = s.archive := by simp [serveSetHoldCeiling]

@[simp] theorem serveLoadThresholds_archive (t : List Int) :
    (serveLoadThresholds t s).1.archive = s.archive := by simp [serveLoadThresholds]

@[simp] theorem quietOn_archive (width : Nat) : (quietOn width s).archive = s.archive := by simp [quietOn]

@[simp] theorem quietOff_archive (width : Nat) : (quietOff width s).archive = s.archive := by simp [quietOff]

@[simp] theorem serveSetQuiet_archive (width : Int) (enable : Bool) :
    (serveSetQuiet width enable s).1.archive = s.archive := by simp [serveSetQuiet]

@[simp] theorem leaveRing_archive (p : Port) : (leaveRing p s).archive = s.archive := by
  unfold leaveRing
  dsimp only
  split <;> simp

@[simp] theorem disableCall_archive (p : Port) : (disableCall p s).archive = s.archive := by
  unfold disableCall
  split <;> simp

@[simp] theorem disablePort_archive (p : Port) : (disablePort p s).1.archive = s.archive := by
  unfold disablePort
  split <;> simp

@[simp] theorem serveSetPortTiming_archive (port pulse flash make ring : Int) :
    (serveSetPortTiming port pulse flash make ring s).1.archive = s.archive := by
  unfold serveSetPortTiming
  split <;> simp

@[simp] theorem serveLoadCadences_archive (entries : List (List (Int × Int))) :
    (serveLoadCadences entries s).1.archive = s.archive := by simp [serveLoadCadences]

@[simp] theorem serveSetQueueMap_archive (map : List Nat) :
    (serveSetQueueMap map s).1.archive = s.archive := by simp [serveSetQueueMap]

@[simp] theorem serveSetThresholds_archive (t : List Int) :
    (serveSetThresholds t s).1.archive = s.archive := by simp [serveSetThresholds]

@[simp] theorem serveSetRoutes_archive (ch : Channel) (side : Side) (flags : List Bool) (master : Bool) :
    (serveSetRoutes ch side flags master s).1.archive = s.archive := by simp [serveSetRoutes]

@[simp] theorem serveSetArchiveThreshold_archive (severity : Nat) :
    (serveSetArchiveThreshold severity s).1.archive = s.archive := by
  unfold serveSetArchiveThreshold
  split <;> simp

@[simp] theorem serveSetTestLimits_archive (test : Nat) (warn fail : Int) :
    (serveSetTestLimits test warn fail s).1.archive = s.archive := by
  unfold serveSetTestLimits
  split <;> simp

@[simp] theorem serveSetWake_archive (port1 port2 line mainsReturn : Bool) :
    (serveSetWake port1 port2 line mainsReturn s).1.archive = s.archive := by simp [serveSetWake]

@[simp] theorem serveRestart_archive (ch : Channel) : (serveRestart ch s).1.archive = s.archive := by simp [serveRestart]

@[simp] theorem serveFactoryOpen_archive (open_ : Bool) :
    (serveFactoryOpen open_ s).1.archive = s.archive := by simp [serveFactoryOpen]

@[simp] theorem serveFactoryProgram_archive (via : Via) (value : FactoryValue) :
    (serveFactoryProgram via value s).1.archive = s.archive := by
  unfold serveFactoryProgram
  split
  · simp
  · cases checkedItem value <;> simp

/-! ### How a request is answered (R191) -/

@[simp] theorem reading_archive (ch : Channel) (report : State → List Field) :
    (reading ch report s).1.archive = s.archive := by simp [reading]

/-! ### The line frame (R3 to R11) -/

@[simp] theorem setWindow_archive (w : List Byte) : (setWindow w s).archive = s.archive := by simp [setWindow]

@[simp] theorem slotVoice_archive (concealed : Bool) (k : Slot) (pair : Byte × Byte) :
    (slotVoice concealed k pair s).archive = s.archive := by
  unfold slotVoice
  dsimp only
  split
  · split <;> simp
  · simp

@[simp] theorem trainingSymbol_archive : (trainingSymbol s).archive = s.archive := by simp [trainingSymbol]

@[simp] theorem frameSent_archive (priority : Bool) : (frameSent priority s).archive = s.archive := by simp [frameSent]

@[simp] theorem askQueues_archive : (askQueues s).archive = s.archive := by
  unfold askQueues
  split <;> simp

@[simp] theorem placeFrameByte_archive (priority : Bool) (left : List Byte) :
    (placeFrameByte priority left s).archive = s.archive := by simp [placeFrameByte]

@[simp] theorem nextByte_archive : (nextByte s).2.archive = s.archive := by
  unfold nextByte
  split <;> simp

@[simp] theorem upByte_archive : (upByte s).2.archive = s.archive := by
  unfold upByte
  split <;> simp

@[simp] theorem overheadByte_archive : (overheadByte s).2.archive = s.archive := by
  unfold overheadByte
  split
  · split <;> simp
  · simp

@[simp] theorem upBytes_archive (n : Nat) : (upBytes n s).2.archive = s.archive := by
  induction n generalizing s with
  | zero => rfl
  | succ n ih => exact (ih _).trans (upByte_archive s)

@[simp] theorem symbolBytes_archive (quiet : Bool) (voice1 voice2 : Byte × Byte) :
    (symbolBytes quiet voice1 voice2 s).2.archive = s.archive := by simp [symbolBytes]

end

/-! ## The state's operations that keep the flash law

Each lemma says that an operation keeps the law; those above and of its callees are what the simplifier goes through. -/

@[simp] theorem flashLaw_ite (c : Prop) [Decidable c] (a b : Archive) :
    FlashLaw (if c then a else b) ↔ (c → FlashLaw a) ∧ (¬c → FlashLaw b) := by split <;> simp [*]

@[simp] theorem whenDue_flashLaw {due : Bool} {f : State → State} {s : State} (h : FlashLaw s.archive)
    (hf : FlashLaw (f s).archive) : FlashLaw (whenDue due f s).archive := by simp [whenDue, h, hf]

@[simp] theorem respond_flashLaw (via : Via) (kind : Nat) (r : Result) (data : List Byte) {s : State}
    (h : FlashLaw s.archive) : FlashLaw (respond via kind r data s).archive := by rwa [respond_archive]

theorem conclude_flashLaw (via : Via) (kind : Nat) {x : Served} (served : FlashLaw x.1.archive) :
    FlashLaw (conclude via kind x).archive := by
  unfold conclude
  split
  · exact respond_flashLaw via kind _ _ served
  · exact served

/-- A next state of this outcome keeps the flash law. -/
def LeavesFlash (o : Host.Outcome State Fault Refusal) : Prop := ∀ t, o = .next t → FlashLaw t.archive

section
variable {s : State} (h : FlashLaw s.archive)
include h

/-! ### Notices and counts (R135, R143, R146) -/

@[simp] theorem count_flashLaw (c : Counter) : FlashLaw (count c s).archive := by simp [count, h]

/-! ### The overhead channel and the home link (R12 to R15, R126, R129, R191) -/

@[simp] theorem deliverDown_flashLaw (content : List Byte) :
    FlashLaw (deliverDown content s).archive := by simp [deliverDown, h]

/-! ### Calls, ports and slots (R81 to R115) -/

@[simp] theorem grant_flashLaw (use : SlotUse) (party : SlotParty) (order : Option Nat) :
    FlashLaw (grant use party order s).archive := by simp [grant, h]

@[simp] theorem admitPort_flashLaw (p : Port) : FlashLaw (admitPort p s).archive := by simp [admitPort, h]

@[simp] theorem requestCall_flashLaw (p : Port) : FlashLaw (requestCall p s).archive := by simp [requestCall, h]

@[simp] theorem judgeHeld_flashLaw (p : Port) : FlashLaw (judgeHeld p s).archive := by simp [judgeHeld, h]

@[simp] theorem offHookInIdle_flashLaw (p : Port) : FlashLaw (offHookInIdle p s).archive := by simp [offHookInIdle, h]

@[simp] theorem idleThenLoop_flashLaw (p : Port) : FlashLaw (idleThenLoop p s).archive := by simp [idleThenLoop, h]

@[simp] theorem shed_flashLaw : FlashLaw (shed s).archive := by
  unfold shed
  dsimp only
  split
  · exact h
  · split
    · simp [h]
    · split <;> simp [h]

/-! ### The second in progress (R133, R134) -/

@[simp] theorem classifySecond_flashLaw : FlashLaw (classifySecond s).archive := by
  unfold classifySecond
  dsimp only
  split <;> simp [h]

/-! ### The loading pass (R27 to R31) -/

theorem passRounds_flashLaw (p : Pass) (n v : Nat) : FlashLaw (passRounds p n v s).1.archive := by
  induction v generalizing n s with
  | zero => exact h
  | succ v ih =>
    unfold passRounds
    split
    · exact h
    · exact ih (shed_flashLaw h) (n + 1)

/-! ### The line between its states, tests and the supply (R43 to R55, R174, R182 to R187) -/

@[simp] theorem failAttempt_flashLaw (why : TrainFail) : FlashLaw (failAttempt why s).archive := by simp [failAttempt, h]

@[simp] theorem closeSecond_flashLaw : FlashLaw (closeSecond s).archive := by simp [closeSecond, h]

@[simp] theorem leaveServiceTo_flashLaw (why : LossReason) (next : LineState) :
    FlashLaw (leaveServiceTo why next s).archive := by
  have closed := closeSecond_flashLaw (raise_flashLaw .line .major .serviceLost [(why.code : Int)] h)
  simp [leaveServiceTo, closed]

@[simp] theorem reportResult_flashLaw (c : Claim) (v : Verdict) (value : Int) :
    FlashLaw (reportResult c v value s).archive := by simp [reportResult, h]

@[simp] theorem givePortBack_flashLaw (c : Claim) : FlashLaw (givePortBack c s).archive := by
  unfold givePortBack
  split <;> simp [h]

@[simp] theorem abortClaim_flashLaw (c : Claim) : FlashLaw (abortClaim c s).archive := by simp [abortClaim, h]

@[simp] theorem abortTest_flashLaw : FlashLaw (abortTest s).archive := by
  unfold abortTest
  split <;> simp [h]

@[simp] theorem abortLineTest_flashLaw : FlashLaw (abortLineTest s).archive := by
  unfold abortLineTest
  split <;> simp [h]

@[simp] theorem lineToOff_flashLaw (why : LossReason) : FlashLaw (lineToOff why s).archive := by
  unfold lineToOff
  split
  · exact leaveServiceTo_flashLaw h why .off
  · exact h
  · exact abortLineTest_flashLaw (s := endAttempt s) h

@[simp] theorem enterDormant_flashLaw : FlashLaw (enterDormant s).archive := by
  have off := lineToOff_flashLaw (s := { s with supply := s.supply.asleep }) h .dormant
  rw [enterDormant_eq, wakeIfReturning_archive, emptyQueues_archive]
  refine abortErase_flashLaw (abortTest_flashLaw ?_)
  rwa [setAllowance_archive]

@[simp] theorem dormancyCheck_flashLaw : FlashLaw (dormancyCheck s).archive := by simp [dormancyCheck, h]

@[simp] theorem powerLossCheck_flashLaw : FlashLaw (powerLossCheck s).archive := by
  unfold powerLossCheck
  split <;> simp [h]

@[simp] theorem leaveService_flashLaw (why : LossReason) (next : LineState) : FlashLaw (leaveService why next s).archive :=
  powerLossCheck_flashLaw (dormancyCheck_flashLaw (leaveServiceTo_flashLaw h why next))

@[simp] theorem powerLossSequence_flashLaw : FlashLaw (powerLossSequence s).archive := by simp [powerLossSequence, h]

@[simp] theorem enterHold_flashLaw : FlashLaw (enterHold s).archive := by simp [enterHold, h]

@[simp] theorem awaken_flashLaw : FlashLaw (awaken s).archive := by simp [awaken, h]

/-! ### The local timebase (log entry 3) -/

@[simp] theorem halfTick_flashLaw : FlashLaw (halfTick s).archive := by
  have ticked := Archive.tick_flashLaw h
  rw [halfTick_eq]
  refine powerLossCheck_flashLaw ?_
  unfold halfTicked
  dsimp only
  split <;> simp [ticked]

@[simp] theorem advance_flashLaw (n : Nat) : FlashLaw (advance n s).archive := by
  induction n generalizing s with
  | zero => exact h
  | succ n ih => exact ih (halfTick_flashLaw h)

@[simp] theorem advanceMs_flashLaw (n : Nat) : FlashLaw (advanceMs n s).archive := by simp [advanceMs, h]

@[simp] theorem advanceTo_flashLaw (n : Nat) : FlashLaw (advanceTo n s).archive := by simp [advanceTo, h]

/-! ### Power-on and restart (R193, R194) -/

@[simp] theorem announce_flashLaw (kind : Int) : FlashLaw (announce kind s).archive := by simp [announce, h]

@[simp] theorem bringUp_flashLaw (mains : Bool) (battery : Battery) (loop1 loop2 : Bool) :
    FlashLaw (bringUp mains battery loop1 loop2 s).archive := by
  have scanned := announce_flashLaw (rotate_flashLaw (s := coldState s.pending s.archive.flash s.factory.items
    (Supply.atPowerOn mains battery) loop1 loop2) (scanFlash_flashLaw h.blocks h.form)) 0
  unfold bringUp
  dsimp only
  rw [startLine_archive]
  split
  · exact raise_flashLaw _ _ _ _ scanned
  · exact scanned

@[simp] theorem endHold_flashLaw : FlashLaw (endHold s).archive := by simp [endHold, h]

@[simp] theorem restartNow_flashLaw (origin : Channel) : FlashLaw (restartNow origin s).archive := by
  have reset : FlashLaw (restartedState origin (abortSilently (closeInterval true s))).archive := by
    simpa [restartedState] using h
  unfold restartNow
  dsimp only
  rw [startLine_archive]
  refine endHold_flashLaw (announce_flashLaw ?_ 1)
  rwa [kickHome_archive]

/-! ### The cycle and second boundaries (R1, R2, R134) -/

@[simp] theorem slotsAtBoundary_flashLaw : FlashLaw (slotsAtBoundary s).archive := by simp [slotsAtBoundary, h]

@[simp] theorem cycleEnds_flashLaw (samples : List Int) (energy nominal : Nat) :
    FlashLaw (cycleEnds samples energy nominal s).archive := by simp [cycleEnds, h]

@[simp] theorem raiseRetired_flashLaw (l : List Nat) : FlashLaw (raiseRetired l s).archive := by
  induction l generalizing s with
  | nil => exact h
  | cons i rest ih => exact ih (raise_flashLaw _ _ _ _ h)

@[simp] theorem floorSeconds_flashLaw : FlashLaw (floorSeconds s).archive := by simp [floorSeconds, h]

@[simp] theorem serviceSecond_flashLaw : FlashLaw (serviceSecond s).archive := by simp [serviceSecond, h]

@[simp] theorem secondEnds_flashLaw : FlashLaw (secondEnds s).archive := by simp [secondEnds, h]

/-! ### Training (R42 to R50) -/

@[simp] theorem leaveProbe_flashLaw : FlashLaw (leaveProbe s).archive := by simp [leaveProbe, h]

@[simp] theorem takeTxTable_flashLaw (first : Nat) (tones : List (Nat × Int)) :
    FlashLaw (takeTxTable first tones s).archive := by simp [takeTxTable, h]

@[simp] theorem seizeMarked_flashLaw (p : Port) : FlashLaw (seizeMarked p s).archive := by simp [seizeMarked, h]

@[simp] theorem enterService_flashLaw (port2First : Bool) : FlashLaw (enterService port2First s).archive := by
  unfold enterService
  dsimp only
  rw [fillRooms_archive, onPorts_archive]
  split
  · refine seizeMarked_flashLaw (seizeMarked_flashLaw ?_ _) _
    simp [h]
  · refine seizeMarked_flashLaw (seizeMarked_flashLaw ?_ _) _
    simp [h]

/-! ### Rate shifts and tone swaps (R57 to R62, R36, R37) -/

@[simp] theorem trainingPassEnds_flashLaw (p : Pass) (r : PassResult) :
    FlashLaw (trainingPassEnds p r s).archive := by simp [trainingPassEnds, h]

@[simp] theorem shiftPassEnds_flashLaw (port2First : Bool) (p : Pass) (r : PassResult) :
    FlashLaw (shiftPassEnds port2First p r s).archive := by simp [shiftPassEnds, h]

@[simp] theorem passEnds_flashLaw (port2First : Bool) (p : Pass) : FlashLaw (passEnds port2First p s).archive := by
  have rounds := passRounds_flashLaw (s := { s with loader.running := none }) h p 0 p.vFloor
  unfold passEnds
  dsimp only
  rw [startWaiting_archive]
  split
  · simp [rounds]
  · split
    · refine trainingPassEnds_flashLaw ?_ _ _
      simp [rounds]
    · refine shiftPassEnds_flashLaw ?_ _ _ _
      simp [rounds]

@[simp] theorem failShift_flashLaw : FlashLaw (failShift s).archive := by simp [failShift, h]

@[simp] theorem offerTimesOut_flashLaw : FlashLaw (offerTimesOut s).archive := by simp [offerTimesOut, h]

@[simp] theorem takeAccept_flashLaw (count : Nat) : FlashLaw (takeAccept count s).archive := by
  unfold takeAccept
  split <;> simp [h]

@[simp] theorem takeDecline_flashLaw (_reason : Nat) : FlashLaw (takeDecline _reason s).archive := by simp [takeDecline, h]

@[simp] theorem reportShift_flashLaw (d : Dir) (oldB newB : Nat) :
    FlashLaw (reportShift d oldB newB s).archive := by simp [reportShift, h]

@[simp] theorem applyRxShift_flashLaw : FlashLaw (applyRxShift s).archive := by simp [applyRxShift, h]

@[simp] theorem rejectOrder_flashLaw (d : Dir) (kind reason : Nat) :
    FlashLaw (rejectOrder d kind reason s).archive := by simp [rejectOrder, h]

@[simp] theorem takeOffer_flashLaw (dir : Dir) (count : Nat) (hold : Bool) (first : Nat) (tones : List (Nat × Int)) :
    FlashLaw (takeOffer dir count hold first tones s).archive := by simp [takeOffer, h]

@[simp] theorem applyTxShift_flashLaw (x : TxShift) : FlashLaw (applyTxShift x s).archive := by simp [applyTxShift, h]

@[simp] theorem takeSwapOrder_flashLaw (dir : Dir) (count : Nat) (es : List SwapEntry) :
    FlashLaw (takeSwapOrder dir count es s).archive := by simp [takeSwapOrder, h]

@[simp] theorem writeSwap_flashLaw (d : Dir) (es : List SwapEntry) :
    FlashLaw (writeSwap d es s).archive := by simp [writeSwap, h]

/-! ### Impulse noise (R70 to R77) -/

@[simp] theorem takeEvent_flashLaw (pos : Nat) (inside : Bool) :
    FlashLaw (takeEvent pos inside s).archive := by simp [takeEvent, h]

@[simp] theorem takeImpulse_flashLaw (pos : Nat) (inside : Bool) :
    FlashLaw (takeImpulse pos inside s).archive := by simp [takeImpulse, h]

@[simp] theorem windowCloses_flashLaw : FlashLaw (windowCloses s).archive := by simp [windowCloses, h]

@[simp] theorem takeSchedule_flashLaw (dir : Dir) (period cycle symbol width : Nat) :
    FlashLaw (takeSchedule dir period cycle symbol width s).archive := by simp [takeSchedule, h]

/-! ### The loop timers (R81 to R83) -/

@[simp] theorem handOffHook_flashLaw (p : Port) : FlashLaw (handOffHook p s).archive := by
  unfold handOffHook
  split <;> simp [h]

@[simp] theorem breakEnds_flashLaw (p : Port) : FlashLaw (breakEnds p s).archive := by simp [breakEnds, h]

@[simp] theorem confirmLoop_flashLaw (p : Port) : FlashLaw (confirmLoop p s).archive := by
  unfold confirmLoop
  split <;> simp [h]

/-! ### The voice slots (R109 to R113) -/

@[simp] theorem abortNamedTest_flashLaw (ps : PortSet) : FlashLaw (abortNamedTest ps s).archive := by
  unfold abortNamedTest
  split
  · split <;> simp [h]
  · simp [h]

@[simp] theorem acceptRing_flashLaw (ps : PortSet) (cadence order : Nat) :
    FlashLaw (acceptRing ps cadence order s).archive := by simp [acceptRing, h]

@[simp] theorem takeRing_flashLaw (ps : PortSet) (cadence order : Nat) :
    FlashLaw (takeRing ps cadence order s).archive := by
  unfold takeRing
  split
  · simp [h]
  · split <;> simp [h]

/-! ### Requests arriving and home frames (R120 to R129, R190) -/

@[simp] theorem enqueueFrame_flashLaw (priority : Bool) (frame : List Byte) :
    FlashLaw (enqueueFrame priority frame s).archive := by simp [enqueueFrame, h]

@[simp] theorem judgeFrame_flashLaw (frame : List Byte) (checkAgrees : Bool) :
    FlashLaw (judgeFrame frame checkAgrees s).archive := by
  cases routed : destinationOf s frame <;> simp [judgeFrame, routed, h]

@[simp] theorem returnFrames_flashLaw (l : List HomeFrame) : FlashLaw (returnFrames l s).archive := by
  induction l generalizing s with
  | nil => exact h
  | cons f rest ih =>
    refine ih ?_
    split <;> simp [h]

@[simp] theorem linkGoesDown_flashLaw : FlashLaw (linkGoesDown s).archive := by simp [linkGoesDown, h]

/-! ### The ends of the flash operations (R157, R160) -/

theorem programEnds_flashLaw (agrees : Bool) {p : Program} (aimed : p.slot < 128) :
    FlashLaw (programEnds agrees p s).archive := by
  have later := advance_flashLaw h p.left
  unfold programEnds
  dsimp only
  split
  · exact programCompletes_flashLaw later aimed
  · exact programFails_flashLaw later aimed

@[simp] theorem eraseEnds_flashLaw (allBlank : Bool) (e : Erase) : FlashLaw (eraseEnds allBlank e s).archive := by
  unfold eraseEnds
  dsimp only
  split <;> simp [h]

/-! ### Tests (R170 to R177) -/

@[simp] theorem takeLine_flashLaw : FlashLaw (takeLine s).archive := by
  unfold takeLine
  split <;> simp [h]

@[simp] theorem startTest_flashLaw (t : TestType) (port : Option Port) (origin : Origin) (force automatic : Bool) :
    FlashLaw (startTest t port origin force automatic s).archive := by
  unfold startTest
  dsimp only
  split <;> simp [h]

@[simp] theorem completeTest_flashLaw (m : Measurement) (c : Claim) : FlashLaw (completeTest m c s).archive := by
  unfold completeTest
  dsimp only
  split <;> simp [h]

@[simp] theorem startSequence_flashLaw : FlashLaw (startSequence s).archive := by simp [startSequence, h]

/-! ### The supply (R180 to R187) -/

@[simp] theorem mainsFails_flashLaw : FlashLaw (mainsFails s).archive := by
  unfold mainsFails
  dsimp only
  split
  · split <;> simp [h]
  · simp [h]

@[simp] theorem reportLow_flashLaw : FlashLaw (reportLow s).archive := by simp [reportLow, h]

@[simp] theorem powerLossOnce_flashLaw : FlashLaw (powerLossOnce s).archive := by simp [powerLossOnce, h]

@[simp] theorem mainsLost_flashLaw : FlashLaw (mainsLost s).archive := by
  unfold mainsLost
  dsimp only
  split
  · split
    · split
      · refine dormancyCheck_flashLaw (reportLow_flashLaw ?_)
        simp [h]
      · simp [h]
    · exact h
  · simp [h]

@[simp] theorem mainsBack_flashLaw : FlashLaw (mainsBack s).archive := by
  unfold mainsBack
  dsimp only
  split
  · simp [h]
  · split
    · exact h
    · refine awaken_flashLaw (raise_flashLaw _ _ _ _ (raise_flashLaw _ _ _ _ ?_))
      simp [h]
  · exact h

@[simp] theorem takeBattery_flashLaw (b : Battery) : FlashLaw (takeBattery b s).archive := by
  unfold takeBattery
  split <;> simp [h]

@[simp] theorem leaveDormant_flashLaw : FlashLaw (leaveDormant s).archive := by simp [leaveDormant, h]

/-! ### Requests (Chapter 12) -/

@[simp] theorem disableLine_flashLaw : FlashLaw (disableLine s).archive := by simp [disableLine, h]

@[simp] theorem serveLineControl_flashLaw (action : LineAction) : FlashLaw (serveLineControl action s).1.archive := by
  unfold serveLineControl
  split
  · simp [h]
  · simp [h]
  · split <;> simp [h]

@[simp] theorem serveSetPort_flashLaw (port : Int) (action : PortAction) :
    FlashLaw (serveSetPort port action s).1.archive := by
  unfold serveSetPort
  split
  · simp [h]
  · split <;> simp [h]

@[simp] theorem serveEraseArchiveBlock_flashLaw (block : Int) : FlashLaw (serveEraseArchiveBlock block s).1.archive := by
  have erased := Archive.beginErase_flashLaw h block.toNat .operator
  simp [serveEraseArchiveBlock, h, erased]

@[simp] theorem serveSetArchiveMode_flashLaw (mode : Nat) : FlashLaw (serveSetArchiveMode mode s).1.archive := by
  have rotated (m : ArchiveMode) :
      FlashLaw (rotate { s with archive := { s.archive with mode := m, fullReported := false } }).archive :=
    rotate_flashLaw (h.same rfl rfl)
  unfold serveSetArchiveMode
  dsimp only
  split <;> simp [h, rotated]

@[simp] theorem clearStatus_flashLaw : FlashLaw (clearStatus s).archive := by
  unfold clearStatus
  split
  · exact archiveReady_flashLaw (h.same rfl rfl)
  · exact h

@[simp] theorem serveClearStatus_flashLaw : FlashLaw (serveClearStatus s).1.archive := by simp [serveClearStatus, h]

@[simp] theorem serveRunTest_flashLaw (ch : Channel) (test : Nat) (port : Int) (force : Bool) :
    FlashLaw (serveRunTest ch test port force s).1.archive := by
  unfold serveRunTest
  split
  · simp [h]
  · rename_i t _
    cases lineTest t <;> cases portOf port <;> simp [h]

/-! ### How a request is answered (R191) -/

theorem request_flashLaw (via : Via) (kind : Nat) {serve : State → Served}
    (served : FlashLaw (serve s).1.archive) : FlashLaw (request via kind serve s).archive := by
  refine whenDue_flashLaw h ?_
  split
  · exact conclude_flashLaw via kind served
  · exact respond_flashLaw via kind _ _ h

theorem ownerOf_flashLaw (i : Instr) : FlashLaw (ownerOf i s).1.archive := by
  unfold ownerOf
  split <;> simp [h]

@[simp] theorem judge_flashLaw (via : Via) (bytes : List Byte) : FlashLaw (judge via bytes s).archive := by
  unfold judge
  dsimp only
  split
  · exact respond_flashLaw _ _ _ _ h
  · split
    · exact respond_flashLaw _ _ _ _ h
    · split
      · exact respond_flashLaw _ _ _ _ h
      · exact conclude_flashLaw _ _ (ownerOf_flashLaw h _)

@[simp] theorem dispatch_flashLaw (ch : Channel) : FlashLaw (dispatch ch s).archive := by
  unfold dispatch
  split <;> simp [h]

@[simp] theorem programmingEnds_flashLaw (agrees : Bool) (p : Programming) :
    FlashLaw (programmingEnds agrees p s).archive := by
  refine respond_flashLaw _ _ _ _ ?_
  exact advance_flashLaw h p.left

/-! ### The line frame (R3 to R11) -/

@[simp] theorem discardFrame_flashLaw : FlashLaw (discardFrame s).archive := by simp [discardFrame, h]

theorem receiverStep_flashLaw {t : State} (stepped : receiverStep s = some t) : FlashLaw t.archive := by
  unfold receiverStep at stepped
  dsimp only at stepped
  split at stepped
  · cases stepped
  · split at stepped
    · split at stepped
      · cases stepped
        simp [h]
      · split at stepped
        · cases stepped
        · split at stepped <;> cases stepped <;> simp [h]
    · split at stepped
      · cases stepped
        simp [h]
      · split at stepped
        · cases stepped
          simp [h]
        · split at stepped
          · cases stepped
          · split at stepped <;> cases stepped <;> simp [h]

@[simp] theorem runReceiver_flashLaw (n : Nat) : FlashLaw (runReceiver n s).archive := by
  induction n generalizing s with
  | zero => exact h
  | succ n ih =>
    unfold runReceiver
    split
    · exact ih (receiverStep_flashLaw h ‹_›)
    · exact h

@[simp] theorem takeData_flashLaw (l : List Byte) : FlashLaw (takeData l s).archive := by
  induction l generalizing s with
  | nil => exact h
  | cons b rest ih =>
    unfold takeData
    exact ih (runReceiver_flashLaw (by simpa using h) _)

@[simp] theorem handleMessage_flashLaw (i : Instr) : FlashLaw (handleMessage i s).archive := by
  unfold handleMessage
  split <;> simp [h]

@[simp] theorem takeOverheadByte_flashLaw (b : Byte) : FlashLaw (takeOverheadByte b s).archive := by
  unfold takeOverheadByte
  dsimp only
  split
  · split <;> simp [h]
  · simp [h]

@[simp] theorem judgeSymbol_flashLaw (impulse inside : Bool) :
    FlashLaw (judgeSymbol impulse inside s).archive := by simp [judgeSymbol, h]

@[simp] theorem serviceSymbol_flashLaw (ratios : List Int) (tones : List (List Bool)) :
    FlashLaw (serviceSymbol ratios tones s).archive := by
  refine takeOverheadByte_flashLaw ?_ _
  refine takeData_flashLaw ?_ _
  simp [h]

@[simp] theorem receive_flashLaw (ratios : List Int) (tones : List (List Bool)) :
    FlashLaw (receive ratios tones s).archive := by
  unfold receive
  split <;> simp [h]

@[simp] theorem compose_flashLaw (voice1 voice2 : Byte × Byte) :
    FlashLaw (compose voice1 voice2 s).archive := by simp [compose, h]

@[simp] theorem afterSending_flashLaw (m : Msg) (c : Nat) : FlashLaw (afterSending m c s).archive := by
  unfold afterSending
  split <;> simp [h]

@[simp] theorem messageEnds_flashLaw (x : Sending) : FlashLaw (messageEnds x s).archive := by simp [messageEnds, h]

/-! ## Every command keeps the flash law -/

theorem run_leavesFlash {f : State → State} (hf : FlashLaw (f s).archive) : LeavesFlash (run f s) := by
  rintro t ⟨⟩
  simp [h, hf]

theorem due_leavesFlash {due : Bool} {f : State → State} (hf : FlashLaw (f s).archive) :
    LeavesFlash (run (whenDue due f) s) := run_leavesFlash h (whenDue_flashLaw h hf)

theorem programDone_leavesFlash (agrees : Bool) : LeavesFlash (execProgramDone agrees s) := by
  refine run_leavesFlash h ?_
  split
  · exact programEnds_flashLaw h agrees (h.aimed _ ‹_›)
  · exact h

theorem exec_leavesFlash (i : Instr) : LeavesFlash (exec i s) := by
  have owned := ownerOf_flashLaw h i
  cases i <;> dsimp only [exec]
  case powerOn =>
    rintro t ⟨⟩
    exact bringUp_flashLaw (losePower_flashLaw h) _ _ _ _
  case programDone => exact programDone_leavesFlash h _
  -- events with an effect in every state
  case cycleBoundary | overheadRoomFill | swapWaitExpiry | loopSenseChange | lossOfPower =>
    refine run_leavesFlash h ?_
    simp [h]
  case mainsSenseChange present elapsed =>
    refine run_leavesFlash h ?_
    cases present <;> simp [h]
  -- events that what the state holds decides
  case trainReply | txTable | entry | loadingPassDone | overheadMessageSent | eraseComplete | testComplete |
      powerLossHoldExpiry | factoryProgramDone =>
    refine run_leavesFlash h ?_
    split <;> simp [h]
  case settleTimerExpiry =>
    refine run_leavesFlash h ?_
    split
    · have later := advanceTo_flashLaw h ‹_›
      exact whenDue_flashLaw later (leaveDormant_flashLaw later)
    · exact h
  case requestDispatch => exact run_leavesFlash h (whenDue_flashLaw h (dispatch_flashLaw h _))
  -- events that a condition lets arise, and what the state holds decides
  case restartTakesEffect | rxShiftStart | txShiftApplied | rxSwapApplied | txSwapApplied | ringTimerExpiry =>
    refine due_leavesFlash h ?_
    split <;> simp [h]
  -- events that a condition lets arise
  case secondBoundary | intervalClose | receiveSymbol | transmitSymbol | receivedMessageDiscarded | trainingRepeat |
      handshakeTimerExpiry | probeStart | probeEnd | tablesTimerExpiry | serviceEntry | backoffExpiry |
      noSignalTimeout | retrainSecondsTrigger | severeSecondsTrigger | rateOfferTimeout | rateOffer | rateAccept |
      rateDecline | rateWithdraw | rxShiftApplied | swapOrder | swapAck | swapReject | toneHoldExpiry |
      predictionTimerExpiry | windowTailExpiry | quietScheduleOffer | quietSchedule | quietCancel | debounceExpiry |
      breakPulseLimitPassed | breakTimerExpiry | makeTimerExpiry | toneTimerExpiry | cadencePhaseEnd |
      seizureWaitExpiry | seizeAck | seizeNak | release | ring | ringStop | mgmtRequest | homeFrameReceived |
      homeLinkUp | homeLinkDown | pauseRepeatExpiry | homeFrameSent | homeBufferRoom | autoTestStart |
      mainsLossQualified | mainsReturnQualified | batteryStateChange | lineWakeSignal | wakeWindowExpiry =>
    refine due_leavesFlash h ?_
    simp [h]
  -- the requests of Chapter 12
  all_goals exact run_leavesFlash h (request_flashLaw h _ _ owned)

theorem step_leavesFlash : LeavesFlash (step s) := by
  unfold step
  split
  · refine exec_leavesFlash ?_ _
    exact h
  · refine run_leavesFlash h ?_
    exact advance_flashLaw h 2

end

/-- Settles O5: each command's effect keeps the flash law, and so does the local timebase. -/
theorem flashLawIsKept : Obligations.FlashLawIsKept := by
  unfold Obligations.FlashLawIsKept
  intro s t h e
  exact step_leavesFlash h t e

end Sys2Proof.Machine
end

section
namespace Sys2Proof.Machine

/-! ## What a loss of power leaves (R163, R196) -/

theorem Archive.block_setBlock (a : Archive) (i j : Nat) (f : FlashBlock → FlashBlock) (inside : i < a.flash.length) :
    (a.setBlock i f).block j = if j = i then f (a.block j) else a.block j := by
  split
  · subst j
    exact a.setBlock_same i f inside
  · exact a.setBlock_other i j f ‹_›

/-- A block that loses its header keeps its slots. -/
theorem Archive.read_headless (a : Archive) (i j k : Nat) :
    ((a.setBlock i fun b => { b with header := none }).block j).read k = (a.block j).read k := by
  by_cases inside : i < a.flash.length
  · rw [Archive.block_setBlock _ _ _ _ inside]
    split <;> rfl
  · rw [Archive.setBlock, List.modify_eq_self (by omega)]

theorem Archive.cut_damaged {a : Archive} {p : Program} (running : a.program = some p) (inside : p.block < a.flash.length) :
    (a.cut.block p.block).read p.slot = some .damaged := by
  have written : ((a.setBlock p.block fun b => b.write p.slot .damaged).block p.block).read p.slot = some .damaged := by
    rw [Archive.setBlock_same _ _ _ inside, FlashBlock.read_write_same]
  unfold Archive.cut
  rw [running]
  dsimp only
  split
  · rw [Archive.read_headless, written]
  · exact written

theorem Archive.cut_headless {a : Archive} {e : Erase} (running : a.erase = some e) (inside : e.block < a.flash.length) :
    (a.cut.block e.block).header = none := by
  unfold Archive.cut
  cases a.program with
  | none =>
    dsimp only
    rw [running]
    dsimp only
    rw [Archive.setBlock_same _ _ _ inside]
  | some p =>
    dsimp only
    rw [Archive.setBlock_erase, running]
    dsimp only
    rw [Archive.setBlock_same]
    rwa [Archive.setBlock_length]

theorem Archive.cut_other {a : Archive} {i : Nat} (program : ∀ p, a.program = some p → i ≠ p.block)
    (erase : a.isTarget i = false) : a.cut.block i = a.block i := by
  have spared : ∀ e, a.erase = some e → i ≠ e.block := by
    rintro e running rfl
    simp [Archive.isTarget, running] at erase
  unfold Archive.cut
  cases running : a.program with
  | none =>
    dsimp only
    split
    · exact Archive.setBlock_other _ _ _ _ (spared _ ‹_›)
    · rfl
  | some p =>
    have other := Archive.setBlock_other a p.block i (fun b => b.write p.slot .damaged) (program p running)
    dsimp only
    split
    · exact (Archive.setBlock_other _ _ _ _ (spared _ ‹_›)).trans other
    · exact other

theorem losePower_items_some {s : State} {f : Programming} (h : s.factory.programming = some f) :
    (losePower s).factory.items = s.factory.items.set f.index .spoiled := by
  unfold losePower
  rw [h]
  rfl

theorem losePower_items_none {s : State} (h : s.factory.programming = none) :
    (losePower s).factory.items = s.factory.items := by
  unfold losePower
  rw [h]
  rfl

/-! ## A record arrives (R153, R154) -/

section
variable {a : Archive} {c : ArchCopy} (numbers : a.sequence < sequenceTop)
include numbers

theorem Archive.arrive_keep (keep : a.mode = .keep) (none : a.current = none) (minor : c.severity ≠ .critical) :
    a.arrive c = a.miss := by
  simp [Archive.arrive, Nat.ne_of_lt numbers, keep, none, minor]

theorem Archive.arrive_room (taken : a.mode = .wrap ∨ a.current ≠ none ∨ c.severity = .critical)
    (room : a.pendingList.length < 8) : a.arrive c = Archive.serve { a with pendingList := a.pendingList ++ [c] } := by
  unfold Archive.arrive
  dsimp only
  rw [if_neg (Nat.ne_of_lt numbers), if_neg, if_pos room]
  rintro ⟨keep, none, minor⟩
  rcases taken with wrap | current | critical
  · simp [keep] at wrap
  · exact current none
  · simp [critical] at minor

theorem Archive.arrive_full (full : a.pendingList.length = 8)
    (noRoom : c.severity ≠ .critical ∨ ∀ x ∈ a.pendingList, x.severity = .critical) : a.arrive c = a.miss := by
  have stays : (c.severity == .critical && a.pendingList.any fun x => x.severity != .critical) = false := by
    rcases noRoom with minor | critical
    · simp [minor]
    · simpa using fun _ => critical
  unfold Archive.arrive
  dsimp only
  rw [if_neg (Nat.ne_of_lt numbers)]
  split
  · rfl
  · rw [if_neg (by omega), stays]
    rfl

omit numbers in
/-- The newest record that is not CRITICAL is the one dropped (R154). -/
theorem dropNewestMinor_eq {before after : List ArchCopy} {x : ArchCopy} (minor : x.severity ≠ .critical)
    (critical : ∀ y ∈ after, y.severity = .critical) : dropNewestMinor (before ++ x :: after) = before ++ after := by
  unfold dropNewestMinor
  rw [List.reverse_append, List.reverse_cons, List.append_assoc, List.eraseP_append_right]
  · simp [minor]
  · simpa using critical

theorem Archive.arrive_evicts {before after : List ArchCopy} {x : ArchCopy} (critical : c.severity = .critical)
    (full : a.pendingList.length = 8) (list : a.pendingList = before ++ x :: after) (minor : x.severity ≠ .critical)
    (newest : ∀ y ∈ after, y.severity = .critical) :
    a.arrive c = Archive.serve { a.miss with pendingList := before ++ after ++ [c] } := by
  have some_minor : (a.pendingList.any fun x => x.severity != .critical) = true := by simp [list, minor]
  unfold Archive.arrive
  dsimp only
  rw [if_neg (Nat.ne_of_lt numbers), if_neg (by simp [critical]), if_neg (by omega), some_minor, critical, list,
    dropNewestMinor_eq minor newest]
  rfl

end

end Sys2Proof.Machine
end

section
namespace Sys2Proof.Machine

/-! ## The sequencer begins a program (R156, R157, R161, R200) -/

theorem Archive.pick_eq {a : Archive} {ok : ArchCopy → Bool} {before after : List ArchCopy} {c : ArchCopy} {b k : Nat}
    (skipped : ∀ x ∈ before, ok x = true → a.offers x.severity = none) (taken : ok c = true)
    (offered : a.offers c.severity = some (b, k)) : a.pick ok (before ++ c :: after) = some (c, b, k, before ++ after) := by
  induction before with
  | nil => simp [Archive.pick, taken, offered]
  | cons x rest ih =>
    obtain ⟨first, others⟩ := List.forall_mem_cons.mp skipped
    have passed : (if ok x then a.offers x.severity else none) = none := by
      split
      · exact first ‹_›
      · rfl
    simp [Archive.pick, passed, ih others]

theorem Archive.pick_none {a : Archive} {ok : ArchCopy → Bool} {l : List ArchCopy} (refused : ∀ x ∈ l, ok x = false) :
    a.pick ok l = none := by
  induction l with
  | nil => rfl
  | cons x rest ih =>
    obtain ⟨first, others⟩ := List.forall_mem_cons.mp refused
    simp [Archive.pick, first, ih others]

section
variable {a : Archive} {before after : List ArchCopy} {c : ArchCopy} {b k : Nat} (numbers : a.sequence ≠ sequenceTop)
  (list : a.pendingList = before ++ c :: after) (offered : a.offers c.severity = some (b, k))
include numbers list offered

theorem Archive.serve_ready (ready : a.state = .ready) (skipped : ∀ x ∈ before, a.offers x.severity = none) :
    a.serve = ({ a with pendingList := before ++ after } : Archive).begin c b k := by
  unfold Archive.serve
  simp only [ready]
  rw [if_neg numbers, list, Archive.pick_eq (fun x hx _ => skipped x hx) rfl offered]

theorem Archive.serve_erasing (erasing : a.state = .erasing) (critical : c.severity = .critical)
    (minor : ∀ x ∈ before, x.severity ≠ .critical) :
    a.serve = ({ a with pendingList := before ++ after } : Archive).begin c b k := by
  unfold Archive.serve
  simp only [erasing]
  rw [if_neg numbers, list, Archive.pick_eq _ (by simp [critical]) offered]
  intro x hx critical
  exact absurd (eq_of_beq critical) (minor x hx)

end

theorem Archive.serve_rests {a : Archive} (h : a.state = .programming ∨ a.state = .error ∨
    (a.state = .erasing ∧ ∀ x ∈ a.pendingList, x.severity ≠ .critical)) : a.serve = a := by
  unfold Archive.serve
  rcases h with programming | error | ⟨erasing, minor⟩
  · simp only [programming]
  · simp only [error]
  · simp only [erasing]
    rw [Archive.pick_none]
    · split <;> rfl
    · simpa using minor

theorem Archive.begin_eq {a : Archive} (numbers : a.sequence + 1 < sequenceTop) (c : ArchCopy) (b k : Nat) :
    a.begin c b k = { a with
      program := some ⟨b, k, ⟨a.sequence, a.powerOns, c, a.missed, [0#8, 0#8, 0#8]⟩, 1⟩
      sequence := a.sequence + 1, missed := 0, state := a.programState
      table := a.table.modify b fun e => if k < 126 then { e with nextOrdinary := e.nextOrdinary + 1 }
        else { e with nextReserved := e.nextReserved + 1 } } := by
  have next : satInc sequenceTop a.sequence = a.sequence + 1 := if_pos (by omega)
  unfold Archive.begin
  dsimp only
  rw [next, if_neg (by omega)]
  rfl

theorem Archive.offers_ordinary {a : Archive} {b : Nat} (current : a.current = some b)
    (room : (a.entry b).nextOrdinary < 126) (sev : Severity) : a.offers sev = some (b, (a.entry b).nextOrdinary) := by
  unfold Archive.offers
  rw [current]
  exact if_pos room

theorem Archive.offers_none {a : Archive} {sev : Severity} (none : a.current = none) (minor : sev ≠ .critical) :
    a.offers sev = .none := by
  unfold Archive.offers
  rw [none]
  exact if_neg minor

theorem Archive.offers_reserved {a : Archive} {b : Nat} (none : a.current = none) (last : a.lastFull = some b)
    (room : (a.entry b).nextReserved < 128) : a.offers .critical = some (b, (a.entry b).nextReserved) := by
  simp [Archive.offers, none, last, room]

/-- One block is judged on the way to the last-FULL block (R152). -/
def Archive.laterFull (a : Archive) (best : Option Nat) (i : Nat) : Option Nat :=
  if (a.entry i).state == .full && !a.isTarget i then
    match best with
    | none => some i
    | some j => if (a.entry j).sequence < (a.entry i).sequence then some i else some j
  else best

theorem Archive.lastFull_foldl (a : Archive) : a.lastFull = (List.range 4).foldl a.laterFull none := rfl

theorem Archive.laterFull_cases (a : Archive) (best : Option Nat) (i : Nat) :
    a.laterFull best i = best ∨ (a.laterFull best i = some i ∧ (a.entry i).state = .full) := by
  unfold Archive.laterFull
  split
  · rename_i judged
    have full : (a.entry i).state = .full := by
      rw [Bool.and_eq_true] at judged
      exact eq_of_beq judged.1
    split
    · exact .inr ⟨rfl, full⟩
    · split
      · exact .inr ⟨rfl, full⟩
      · exact .inl rfl
  · exact .inl rfl

theorem Archive.laterFull_stays {a : Archive} {b i : Nat}
    (lower : (a.entry i).state = .full → (a.entry i).sequence < (a.entry b).sequence) : a.laterFull (some b) i = some b := by
  rcases a.laterFull_cases (some b) i with e | ⟨-, full⟩
  · exact e
  · have := lower full
    unfold Archive.laterFull
    dsimp only
    rw [if_neg (by omega : ¬ (a.entry b).sequence < (a.entry i).sequence), ite_self]

section
variable {a : Archive} {b : Nat} (full : (a.entry b).state = .full) (free : a.isTarget b = false)
include full free

theorem Archive.laterFull_highest {best : Option Nat}
    (below : ∀ j, best = some j → j ≠ b → (a.entry j).sequence < (a.entry b).sequence) :
    a.laterFull best b = some b := by
  unfold Archive.laterFull
  rw [if_pos (by simp [full, free])]
  cases best with
  | none => rfl
  | some j =>
    by_cases here : j = b
    · exact here ▸ ite_self _
    · exact if_pos (below j rfl here)

theorem Archive.foldl_laterFull {l : List Nat} {best : Option Nat}
    (highest : ∀ i ∈ l, i ≠ b → (a.entry i).state = .full → (a.entry i).sequence < (a.entry b).sequence)
    (below : ∀ j, best = some j → j ≠ b → (a.entry j).sequence < (a.entry b).sequence)
    (found : b ∈ l ∨ best = some b) : l.foldl a.laterFull best = some b := by
  induction l generalizing best with
  | nil => simpa using found
  | cons i rest ih =>
    obtain ⟨first, others⟩ := List.forall_mem_cons.mp highest
    rw [List.foldl_cons]
    by_cases here : i = b
    · subst i
      refine ih others ?_ (.inr (Archive.laterFull_highest full free below))
      rw [Archive.laterFull_highest full free below]
      rintro j ⟨⟩ other
      exact absurd rfl other
    · refine ih others ?_ ?_
      · rcases a.laterFull_cases best i with e | ⟨e, fullToo⟩
        · rwa [e]
        · rw [e]
          rintro j ⟨⟩ other
          exact first other fullToo
      · rcases found with mem | rfl
        · exact .inl ((List.mem_cons.mp mem).resolve_left (Ne.symm here))
        · exact .inr (Archive.laterFull_stays (first here))

theorem Archive.lastFull_eq (inside : b < 4)
    (highest : ∀ i, i < 4 → i ≠ b → (a.entry i).state = .full → (a.entry i).sequence < (a.entry b).sequence) :
    a.lastFull = some b := by
  rw [Archive.lastFull_foldl]
  refine Archive.foldl_laterFull full free ?_ nofun (.inl (List.mem_range.mpr inside))
  exact fun i hi => highest i (List.mem_range.mp hi)

end

end Sys2Proof.Machine
end

section
namespace Sys2Proof.Machine

/-! ## The rotation step (R159) -/

/-- Rotation acts on the first block after the pointer that is not BAD. -/
theorem Archive.rotationTarget_eq {a : Archive} {k : Nat} (inside : k < 4)
    (bad : ∀ j, j < k → (a.entry ((a.pointer + 1 + j) % 4)).state = .bad)
    (good : (a.entry ((a.pointer + 1 + k) % 4)).state ≠ .bad) : a.rotationTarget = some ((a.pointer + 1 + k) % 4) := by
  unfold Archive.rotationTarget
  rw [List.find?_map, Option.map_eq_some_iff]
  refine ⟨k, ?_, rfl⟩
  rw [List.find?_range_eq_some]
  refine ⟨by simpa using good, List.mem_range.mpr inside, ?_⟩
  intro j hj
  simp [bad j hj]

section
variable {s : State} {i : Nat} (none : s.archive.current = none) (target : s.archive.rotationTarget = some i)
include none target

theorem rotate_erased (erased : (s.archive.entry i).state = .erased) (free : s.archive.isTarget i = false) :
    rotate s = { s with archive := s.archive.makeCurrent i } := by
  simp [rotate, none, target, erased, free]

variable (wanted : (s.archive.entry i).state = .full ∨ (s.archive.entry i).state = .needsErase)
include wanted

theorem rotate_wrap (wrap : s.archive.mode = .wrap) : rotate s =
    if s.archive.state = .ready ∧ s.supply.state ≠ .dormant ∧ s.archive.blockSequence < sequenceTop then
      { s with archive := s.archive.beginErase i .internal } else s := by
  have notErased : (s.archive.entry i).state ≠ .erased := by rcases wanted with e | e <;> simp [e]
  simp [rotate, none, target, notErased, wrap]

theorem rotate_keep (keep : s.archive.mode = .keep) : rotate s =
    let t := { s with archive := { s.archive.missMinor with fullReported := true } }
    if s.archive.fullReported then t else raise .archive .minor .archiveFull [] t := by
  have notErased : (s.archive.entry i).state ≠ .erased := by rcases wanted with e | e <;> simp [e]
  simp [rotate, none, target, notErased, keep]

end

/-- With nobody waiting, the block rotation takes has only its table entry, header and records changed (R159, R160). -/
theorem Archive.makeCurrent_eq {a : Archive} (empty : a.pendingList = []) (i : Nat) : a.makeCurrent i = { a with
    table := a.table.modify i fun e => { e with state := .current, nextOrdinary := 0, nextReserved := 126 }
    pointer := i, fullReported := false } := Archive.serve_empty empty

theorem Archive.beginErase_eq {a : Archive} (empty : a.pendingList = []) (i : Nat) (o : Origin) : a.beginErase i o = { a with
    flash := a.flash.modify i fun _ => ⟨none, []⟩
    table := a.table.modify i fun e => { e with nextOrdinary := 0, nextReserved := 126, damaged := 0 }
    erase := some ⟨i, o, 800⟩, state := .erasing } := by
  unfold Archive.beginErase
  exact Archive.serve_empty empty

theorem foldl_miss_eq (l : List ArchCopy) {a : Archive} (bounded : a.missed ≤ 65535) :
    l.foldl (fun x _ => x.miss) a = { a with missed := min 65535 (a.missed + l.length) } := by
  induction l generalizing a with
  | nil => simp [Nat.min_eq_right bounded]
  | cons c rest ih =>
    have counted : a.miss.missed = min 65535 (a.missed + 1) := by
      simp only [Archive.miss, satInc]
      split <;> omega
    rw [List.foldl_cons, ih (by omega), counted]
    simp only [Archive.miss, List.length_cons]
    congr 1
    omega

theorem Archive.missMinor_eq {a : Archive} (bounded : a.missed ≤ 65535) : a.missMinor = { a with
    pendingList := a.pendingList.filter fun x => x.severity == .critical
    missed := min 65535 (a.missed + (a.pendingList.filter fun x => x.severity != .critical).length) } :=
  foldl_miss_eq _ bounded

/-! ## SET_ARCHIVE_MODE (R165) -/

theorem exec_setArchiveMode {via : Via} {s : State} (d : Dispatchable via s) (op : via.ch = .operator) (mode : Nat) :
    exec (.setArchiveMode via mode) s = .next (conclude via 0x1F (serveSetArchiveMode mode s)) :=
  exec_request (c := .setArchiveMode via mode) d (originAllowed_operator _ op) rfl

/-! ## The archive's records, their slots and its blocks -/

/-- Settles O15: each clause is a lemma above about the operation it speaks of. -/
theorem archiveKeepsRecords : Obligations.ArchiveKeepsRecords := by
  unfold Obligations.ArchiveKeepsRecords
  refine ⟨?loss, ?arrival, ?program, ?rest, ?rotation, ?mode⟩
  case loss =>
    intro s hs
    refine ⟨losePower s, exec_of_run (c := .lossOfPower) hs rfl, rfl, ?_, ?_, ?_, ?_, ?_⟩
    · exact fun p running inside => Archive.cut_damaged running inside
    · exact fun e running inside => Archive.cut_headless running inside
    · exact fun i program erase => Archive.cut_other program erase
    · exact fun f programming => losePower_items_some programming
    · exact losePower_items_none
  case arrival =>
    intro a c numbers
    refine ⟨?_, ?_, ?_, ?_, ?_⟩
    · exact Archive.arrive_keep numbers
    · exact Archive.arrive_room numbers
    · exact fun minor full => Archive.arrive_full numbers full (.inl minor)
    · exact fun _ full critical => Archive.arrive_full numbers full (.inr critical)
    · exact fun before x after critical full list minor newest =>
        Archive.arrive_evicts numbers critical full list minor newest
  case program =>
    intro a before c after numbers list
    have left : a.sequence ≠ sequenceTop := by
      unfold sequenceTop
      omega
    have begun := Archive.begin_eq (a := { a with pendingList := before ++ after }) numbers c
    refine ⟨?_, ?_, ?_⟩
    · rintro b ready noErase rfl current room
      rw [Archive.serve_ready left list (Archive.offers_ordinary current room _) ready nofun, begun]
      simp [Archive.programState, noErase, room]
    · intro b ready noErase none critical minor inside full highest reserved room
      have free : a.isTarget b = false := by simp [Archive.isTarget, noErase]
      have offered := Archive.offers_reserved none (Archive.lastFull_eq full free inside highest) room
      rw [← critical] at offered
      rw [Archive.serve_ready left list offered ready fun x hx => Archive.offers_none none (minor x hx),
        begun]
      simp [Archive.programState, noErase, Nat.not_lt.mpr reserved]
    · intro b e erasing running _ critical minor current room
      rw [Archive.serve_erasing left list (Archive.offers_ordinary current room _) erasing critical minor,
        begun]
      simp [Archive.programState, running, room]
  case rest => exact fun a => Archive.serve_rests
  case rotation =>
    intro k s none inside bad
    dsimp only
    have target := Archive.rotationTarget_eq inside bad
    refine ⟨?_, ?_, ?_, ?_⟩
    · intro erased free empty
      rw [rotate_erased none (target (by simp [erased])) erased free, Archive.makeCurrent_eq empty]
    · intro wanted wrap ready awake numbers empty
      rw [rotate_wrap none (target (by rcases wanted with e | e <;> simp [e])) wanted wrap, if_pos ⟨ready, awake, numbers⟩,
        Archive.beginErase_eq empty]
    · intro wanted wrap waits
      rw [rotate_wrap none (target (by rcases wanted with e | e <;> simp [e])) wanted wrap, if_neg]
      rintro ⟨ready, awake, numbers⟩
      rcases waits with busy | dormant | spent
      · exact busy ready
      · exact awake dormant
      · exact absurd spent (Nat.ne_of_lt numbers)
    · intro wanted keep bounded
      rw [rotate_keep none (target (by rcases wanted with e | e <;> simp [e])) wanted keep, Archive.missMinor_eq bounded]
  case mode =>
    intro via s hs free op
    exact ⟨exec_setArchiveMode ⟨hs, free⟩ op 0, exec_setArchiveMode ⟨hs, free⟩ op 1⟩

end Sys2Proof.Machine
end

section
namespace Sys2Proof.Machine

/-! ## The local timebase and the flash operations (log entry 3) -/

theorem halfTicked_archive (s : State) : (halfTicked s).archive = s.archive.tick := by
  unfold halfTicked
  dsimp only
  split <;> rfl

/-- Without a power-loss hold, of the archive the local timebase moves the flash operations alone. -/
theorem advance_archive (n : Nat) {s : State} (noHold : s.supply.powerLossHold = none) :
    (advance n s).archive = Archive.tick^[n] s.archive := by
  induction n generalizing s with
  | zero => rfl
  | succ n ih =>
    have ticked : (halfTicked s).supply.powerLossHold = none := by rw [halfTicked_hold, noHold]; rfl
    rw [advance, halfTick_noHold noHold, ih ticked, halfTicked_archive, Function.iterate_succ_apply]

/-- The block an erase is of and who asked for it. -/
def Archive.erasing (a : Archive) : Option (Nat × Origin) := a.erase.map fun e => (e.block, e.origin)

theorem Archive.tick_erasing (a : Archive) : a.tick.erasing = a.erasing := by
  unfold Archive.erasing Archive.tick
  dsimp only
  split
  · rw [Option.map_map]
    rfl
  · rfl

theorem Archive.ticks_frame (n : Nat) (a : Archive) :
    ∃ p e, Archive.tick^[n] a = { a with program := p, erase := e } ∧
      e.map (fun e => (e.block, e.origin)) = a.erasing := by
  induction n generalizing a with
  | zero => exact ⟨a.program, a.erase, rfl, rfl⟩
  | succ n ih =>
    obtain ⟨p, e, ticked, target⟩ := ih a.tick
    exact ⟨p, e, ticked, target.trans a.tick_erasing⟩

/-- The archive with no erase running stays without one as the timebase runs. -/
theorem advance_idle (n : Nat) {s : State} (noHold : s.supply.powerLossHold = none) (noErase : s.archive.erase = none) :
    ∃ p, (advance n s).archive = { s.archive with program := p } := by
  obtain ⟨p, e, ticked, target⟩ := s.archive.ticks_frame n
  have none : e = .none := by simpa [Archive.erasing, noErase] using target
  exact ⟨p, by rw [advance_archive n noHold, ticked, none, ← noErase]⟩

/-- A running erase keeps its block and its origin as the timebase runs. -/
theorem advance_erasing (n : Nat) {s : State} {e : Erase} (noHold : s.supply.powerLossHold = none)
    (running : s.archive.erase = some e) : ∃ p e', (advance n s).archive = { s.archive with program := p, erase := some e' } ∧
      e'.block = e.block ∧ e'.origin = e.origin := by
  obtain ⟨p, e', ticked, target⟩ := s.archive.ticks_frame n
  simp only [Archive.erasing, running, Option.map_some, Option.map_eq_some_iff, Prod.mk.injEq] at target
  obtain ⟨e', rfl, block, origin⟩ := target
  exact ⟨p, e', by rw [advance_archive n noHold, ticked], block, origin⟩

/-! ## What serving the pending list leaves of the block table (R156, R157) -/

/-- The states of the blocks and the rotation pointer. -/
def Archive.outline (a : Archive) : List BlockState × Nat := (a.table.map (·.state), a.pointer)

theorem foldl_miss_outline (l : List ArchCopy) (a : Archive) : (l.foldl (fun x _ => x.miss) a).outline = a.outline := by
  induction l generalizing a with
  | nil => rfl
  | cons c rest ih => exact ih a.miss

theorem Archive.setEntry_outline (a : Archive) (i : Nat) {f : BlockEntry → BlockEntry} (keeps : ∀ e, (f e).state = e.state) :
    (a.setEntry i f).outline = a.outline := by
  unfold Archive.outline Archive.setEntry
  congr 1
  refine List.ext_getElem? fun j => ?_
  rw [List.getElem?_map, List.getElem?_map, List.getElem?_modify]
  cases a.table[j]? with
  | none => rfl
  | some e =>
    refine congrArg some ?_
    dsimp only
    split
    · exact keeps e
    · rfl

theorem Archive.begin_outline (a : Archive) (c : ArchCopy) (b k : Nat) : (a.begin c b k).outline = a.outline := by
  have used := a.setEntry_outline b (f := fun e =>
    if k < 126 then { e with nextOrdinary := e.nextOrdinary + 1 } else { e with nextReserved := e.nextReserved + 1 })
    (fun e => by split <;> rfl)
  unfold Archive.begin
  dsimp only
  split
  · exact (foldl_miss_outline _ _).trans used
  · exact used

theorem Archive.serve_outline (a : Archive) : a.serve.outline = a.outline := by
  rcases a.serve_cases with e | ⟨before, c, after, b, k, -, -, e, -⟩
  · rw [e]
  · rw [e, Archive.begin_outline]
    rfl

theorem Archive.pointer_of_outline {a b : Archive} (h : a.outline = b.outline) : a.pointer = b.pointer :=
  congrArg Prod.snd h

theorem Archive.states_of_outline {a b : Archive} (h : a.outline = b.outline) (i : Nat) :
    (a.entry i).state = (b.entry i).state := by
  have states : a.table.map (·.state) = b.table.map (·.state) := congrArg Prod.fst h
  have read := congrArg (·.getD i .needsErase) states
  simpa [Archive.entry, List.getD_eq_getElem?_getD, ← Option.getD_map, BlockEntry.blank] using read

theorem Archive.current_of_outline {a b : Archive} (h : a.outline = b.outline) : a.current = b.current := by
  have states : a.table.map (·.state) = b.table.map (·.state) := congrArg Prod.fst h
  have found := congrArg (List.findIdx? (· == .current)) states
  rwa [List.findIdx?_map, List.findIdx?_map] at found

theorem Archive.serve_current (a : Archive) : a.serve.current = a.current := Archive.current_of_outline a.serve_outline

theorem Archive.serve_flash (a : Archive) : a.serve.flash = a.flash := congrArg Prod.snd a.serve_stored

/-- With a CURRENT block the waiting records are served and the rotation step is not taken (R156, R159). -/
theorem archiveReady_current {s : State} {i : Nat} (current : s.archive.current = some i) :
    archiveReady s = { s with archive := s.archive.serve } := rotate_current (s.archive.serve_current.trans current)

theorem archiveReady_flash {s : State} {i : Nat} (current : s.archive.current = some i) :
    (archiveReady s).archive.flash = s.archive.flash := by
  rw [archiveReady_current current]
  exact Archive.serve_flash _

/-! ## The archive in ERROR (R158, R162) -/

theorem Archive.serve_error {a : Archive} (error : a.state = .error) : a.serve = a := Archive.serve_rests (.inr (.inl error))

/-- In ERROR an arriving record joins the list or is missed, and begins nothing. -/
theorem Archive.arrive_error {a : Archive} (error : a.state = .error) (c : ArchCopy) :
    ∃ m l, a.arrive c = { a with missed := m, pendingList := l } := by
  unfold Archive.arrive
  dsimp only
  split
  · exact ⟨_, a.pendingList, rfl⟩
  · split
    · exact ⟨_, a.pendingList, rfl⟩
    · split
      · exact ⟨a.missed, _, Archive.serve_error error⟩
      · split
        · exact ⟨_, _, Archive.serve_error error⟩
        · exact ⟨_, a.pendingList, rfl⟩

theorem raise_error {s : State} (error : s.archive.state = .error) (cls : NoticeClass) (sev : Severity) (code : NoticeCode)
    (ps : List Int) : ∃ m l, (raise cls sev code ps s).archive = { s.archive with missed := m, pendingList := l } := by
  rw [raise_archive]
  unfold copyToArchive
  split
  · exact Archive.arrive_error error _
  · exact ⟨s.archive.missed, s.archive.pendingList, rfl⟩

/-- In WRAP and ERROR the rotation step takes an ERASED block, and begins no erase (R159). -/
theorem rotate_error {s : State} (wrap : s.archive.mode = .wrap) (error : s.archive.state = .error) :
    ∃ table i told, (rotate s).archive = { s.archive with table := table, pointer := i, fullReported := told } := by
  have unchanged : ∃ table i told, s.archive = { s.archive with table := table, pointer := i, fullReported := told } :=
    ⟨s.archive.table, s.archive.pointer, s.archive.fullReported, rfl⟩
  unfold rotate
  dsimp only
  split
  · exact unchanged
  · split
    · exact unchanged
    · split
      · split
        · exact unchanged
        · exact ⟨_, _, _, Archive.serve_error error⟩
      · split
        · rw [if_neg (by simp [error])]
          exact unchanged
        · rename_i keep
          exact absurd (wrap.symm.trans keep) nofun

/-- A block that becomes FULL in ERROR leaves the flash and the marks of a failure (R158). -/
theorem fullIfLast_error {s : State} (p : Program) (wrap : s.archive.mode = .wrap) (error : s.archive.state = .error) :
    ∃ table i told, (fullIfLast p s).archive = { s.archive with table := table, pointer := i, fullReported := told } := by
  unfold fullIfLast
  dsimp only
  split
  · obtain ⟨table, i, told, e⟩ := rotate_error
      (s := { s with archive := s.archive.setEntry p.block fun e => { e with state := .full } }) wrap error
    exact ⟨table, i, told, e⟩
  · exact ⟨s.archive.table, s.archive.pointer, s.archive.fullReported, rfl⟩

/-! ## The ends of a program (R157, R158) -/

/-- Short of the last ordinary slot, a program that ends well changes its own slot of the flash (R157). -/
theorem programCompletes_flash {s : State} {p : Program} (noErase : s.archive.erase = none)
    (short : (s.archive.entry p.block).nextOrdinary < 126) (current : s.archive.current = some p.block) :
    (programCompletes p s).archive.flash = (s.archive.setBlock p.block fun b => b.write p.slot (.record p.record)).flash := by
  have held : ¬ (s.archive.setBlock p.block fun b => b.write p.slot (.record p.record)).erase.isSome := by simp [noErase]
  unfold programCompletes
  dsimp only
  rw [if_neg held]
  unfold fullIfLast
  dsimp only
  rw [if_neg]
  · exact archiveReady_flash current
  · rintro ⟨-, -, last⟩
    exact absurd last (Nat.ne_of_lt short)

/-- The flash array, and the marks a failing program leaves (R158). -/
def Archive.marks (a : Archive) : List FlashBlock × Bool × SeqState × Option Program :=
  (a.flash, a.programFailed, a.state, a.program)

/-- What follows a failure leaves its marks (R158). -/
theorem fullIfLast_raise_marks {s : State} (wrap : s.archive.mode = .wrap) (error : s.archive.state = .error) (p : Program)
    (cls : NoticeClass) (sev : Severity) (code : NoticeCode) (ps : List Int) :
    (fullIfLast p (raise cls sev code ps s)).archive.marks = s.archive.marks := by
  obtain ⟨m, l, raised⟩ := raise_error error cls sev code ps
  obtain ⟨table, i, told, full⟩ := fullIfLast_error (s := raise cls sev code ps s) p (by rw [raised]; exact wrap)
    (by rw [raised]; exact error)
  rw [full, raised]
  rfl

theorem Archive.abandonErase_mode (a : Archive) : a.abandonErase.mode = a.mode := by
  unfold Archive.abandonErase
  split <;> rfl

/-- A program that fails leaves a damaged slot and the marks of the failure (R158). -/
theorem programFails_marks {s : State} (wrap : s.archive.mode = .wrap) (p : Program) : (programFails p s).archive.marks =
    ((s.archive.setBlock p.block fun b => b.write p.slot .damaged).flash, true, .error, none) := by
  unfold programFails
  dsimp only
  rw [fullIfLast_raise_marks]
  · exact congrArg (·, true, SeqState.error, none) (Archive.abandonErase_flash _)
  · exact (Archive.abandonErase_mode _).trans wrap
  · rfl

/-! ## The ends of an erase (R160, R162) -/

theorem Archive.entry_setEntry {a : Archive} {i : Nat} (inside : i < a.table.length) (f : BlockEntry → BlockEntry) :
    (a.setEntry i f).entry i = f (a.entry i) := by
  simp [Archive.entry, Archive.setEntry, List.getD_eq_getElem?_getD, inside]

theorem Archive.current_taken {a : Archive} {i : Nat} (inside : i < a.table.length) (taken : (a.entry i).state = .current) :
    ∃ j, a.current = some j := by
  rw [← Option.isSome_iff_exists]
  unfold Archive.current
  rw [List.findIdx?_isSome, List.any_eq_true]
  refine ⟨a.table[i], List.getElem_mem _, ?_⟩
  simpa [Archive.entry, List.getD_eq_getElem?_getD, inside] using taken

/-- The archive of a block that becomes CURRENT, before the waiting records are served (R159). -/
def Archive.taken (a : Archive) (i : Nat) : Archive :=
  { a.setEntry i fun e => { e with state := .current, nextOrdinary := 0, nextReserved := 126 } with
    pointer := i, fullReported := false }

theorem Archive.makeCurrent_taken (a : Archive) (i : Nat) : a.makeCurrent i = (a.taken i).serve := rfl

theorem Archive.makeCurrent_flash (a : Archive) (i : Nat) : (a.makeCurrent i).flash = a.flash := Archive.serve_flash _

theorem Archive.makeCurrent_state {a : Archive} {i : Nat} (inside : i < a.table.length) :
    ((a.makeCurrent i).entry i).state = .current := by
  rw [Archive.makeCurrent_taken, Archive.states_of_outline (Archive.serve_outline _)]
  have set := a.entry_setEntry inside fun e => { e with state := .current, nextOrdinary := 0, nextReserved := 126 }
  exact congrArg (·.state) set

/-- A block taken is CURRENT also after the waiting records are served, so that the rotation step is not taken (R160). -/
theorem archiveReady_makeCurrent {s : State} {a : Archive} {i : Nat} (inside : i < a.table.length) :
    (archiveReady { s with archive := a.makeCurrent i }).archive = (a.makeCurrent i).serve := by
  have kept : (a.makeCurrent i).outline = (a.taken i).outline := Archive.serve_outline _
  have taken : ((a.taken i).entry i).state = .current :=
    (Archive.states_of_outline kept i).symm.trans (Archive.makeCurrent_state inside)
  have stillInside : i < (a.taken i).table.length := by simpa [Archive.taken, Archive.setEntry] using inside
  obtain ⟨j, current⟩ := Archive.current_taken stillInside taken
  rw [archiveReady_current ((Archive.current_of_outline kept).trans current)]

/-- A rotation erase that ends well writes its block's header and makes the block CURRENT (R160). -/
theorem eraseCompletes_internal {s : State} {e : Erase} (internal : e.origin = .internal)
    (inside : e.block < s.archive.table.length) :
    (eraseCompletes e s).archive.flash = (s.archive.setBlock e.block fun _ =>
        ⟨some ⟨s.archive.blockSequence, satInc 65535 (s.archive.entry e.block).eraseCount⟩, []⟩).flash ∧
      (eraseCompletes e s).archive.erase = none ∧ (eraseCompletes e s).archive.pointer = e.block ∧
      ((eraseCompletes e s).archive.entry e.block).state = .current := by
  unfold eraseCompletes
  rw [internal]
  dsimp only
  rw [archiveReady_makeCurrent (by simpa [Archive.setEntry] using inside)]
  refine ⟨?_, ?_, ?_, ?_⟩
  · rw [Archive.serve_flash, Archive.makeCurrent_flash]
    rfl
  · rw [Archive.serve_erase, Archive.makeCurrent_erase]
  · rw [Archive.pointer_of_outline (Archive.serve_outline _), Archive.makeCurrent_taken,
      Archive.pointer_of_outline (Archive.serve_outline _)]
    rfl
  · rw [Archive.states_of_outline (Archive.serve_outline _), Archive.makeCurrent_state]
    simpa [Archive.setEntry] using inside

/-- An erase that fails makes its block BAD and marks the failure; the flash stays (R162). -/
theorem eraseFails_archive {s : State} {e : Erase} (inside : e.block < s.archive.table.length) :
    (eraseFails e s).archive.flash = s.archive.flash ∧ ((eraseFails e s).archive.entry e.block).state = .bad ∧
      (eraseFails e s).archive.eraseFailed = true ∧ (eraseFails e s).archive.state = .error ∧
      (eraseFails e s).archive.erase = none := by
  have bad := Archive.entry_setEntry inside fun x => { x with state := .bad }
  unfold eraseFails
  dsimp only
  obtain ⟨m, l, raised⟩ := raise_error (s := { s with archive := { s.archive.setEntry e.block fun x => { x with state := .bad }
    with erase := none, eraseFailed := true, state := .error } }) rfl .archive .major .archiveError
    [Config.archiveError 1, (e.block : Int)]
  rw [raised]
  exact ⟨rfl, congrArg (·.state) bad, rfl, rfl, rfl⟩

/-! ## What the ends of the flash operations leave -/

/-- The line, its tones and slots, the data and overhead channels, management and the counters. -/
def State.services (s : State) := (s.line, s.tones, s.slots, s.data, s.overhead, s.mgmt, s.perf)

theorem halfTicked_services (s : State) : (halfTicked s).services = s.services := by
  unfold halfTicked
  dsimp only
  split <;> rfl

theorem advance_services (n : Nat) {s : State} (noHold : s.supply.powerLossHold = none) :
    (advance n s).services = s.services := by
  induction n generalizing s with
  | zero => rfl
  | succ n ih =>
    have ticked : (halfTicked s).supply.powerLossHold = none := by rw [halfTicked_hold, noHold]; rfl
    rw [advance, halfTick_noHold noHold, ih ticked, halfTicked_services]

theorem raise_services (cls : NoticeClass) (sev : Severity) (code : NoticeCode) (ps : List Int) (s : State) :
    (raise cls sev code ps s).services = s.services := by
  obtain ⟨a, n, e⟩ := raise_frame cls sev code ps s
  rw [e]
  rfl

theorem rotate_services (s : State) : (rotate s).services = s.services := by
  obtain ⟨a, n, e⟩ := rotate_frame s
  rw [e]
  rfl

theorem archiveReady_services (s : State) : (archiveReady s).services = s.services := rotate_services _

theorem fullIfLast_services (p : Program) (s : State) : (fullIfLast p s).services = s.services := by
  unfold fullIfLast
  dsimp only
  split
  · exact rotate_services _
  · rfl

theorem programCompletes_services (p : Program) (s : State) : (programCompletes p s).services = s.services := by
  unfold programCompletes
  dsimp only
  split
  · exact fullIfLast_services p _
  · exact (archiveReady_services _).trans (fullIfLast_services p _)

theorem programFails_services (p : Program) (s : State) : (programFails p s).services = s.services :=
  (fullIfLast_services p _).trans (raise_services _ _ _ _ _)

theorem eraseCompletes_services (e : Erase) (s : State) : (eraseCompletes e s).services = s.services := by
  unfold eraseCompletes
  dsimp only
  split
  · exact archiveReady_services _
  · exact (archiveReady_services _).trans (raise_services _ _ _ _ _)

theorem eraseFails_services (e : Erase) (s : State) : (eraseFails e s).services = s.services := raise_services _ _ _ _ _

section
variable {s : State} (powered : s.powered = true)
include powered

theorem exec_programDone {p : Program} (running : s.archive.program = some p) (ok : Bool) :
    exec (.programDone ok) s = .next (programEnds ok p s) := by
  change execProgramDone ok s = _
  rw [execProgramDone, run_powered _ _ powered, running]

theorem exec_eraseComplete {e : Erase} (running : s.archive.erase = some e) (erasing : s.archive.state = .erasing) (ok : Bool) :
    exec (.eraseComplete ok) s = .next (eraseEnds ok e s) := by
  change execEraseComplete ok s = _
  rw [execEraseComplete, run_powered _ _ powered, running]
  dsimp only
  rw [if_pos erasing]

end

section
variable {s : State} (noHold : s.supply.powerLossHold = none)
include noHold

theorem programEnds_services (ok : Bool) (p : Program) : (programEnds ok p s).services = s.services := by
  have passed := advance_services p.left noHold
  unfold programEnds
  dsimp only
  split
  · exact (programCompletes_services _ _).trans passed
  · exact (programFails_services _ _).trans passed

theorem eraseEnds_services (ok : Bool) (e : Erase) : (eraseEnds ok e s).services = s.services := by
  have passed := advance_services e.left noHold
  unfold eraseEnds
  dsimp only
  split
  · split
    · exact (eraseCompletes_services _ _).trans passed
    · exact (eraseFails_services _ _).trans passed
  · exact passed

/-- At the end of its time a running erase, with its block and origin, completes or fails. -/
theorem eraseEnds_eq {e : Erase} (running : s.archive.erase = some e) (ok : Bool) :
    ∃ q e', (advance e.left s).archive = { s.archive with program := q, erase := some e' } ∧ e'.block = e.block ∧
      e'.origin = e.origin ∧
      eraseEnds ok e s = if ok then eraseCompletes e' (advance e.left s) else eraseFails e' (advance e.left s) := by
  obtain ⟨q, e', passed, block, origin⟩ := advance_erasing e.left noHold running
  refine ⟨q, e', passed, block, origin, ?_⟩
  unfold eraseEnds
  dsimp only
  rw [passed]

variable (powered : s.powered = true)
include powered

theorem programDone_services {ok : Bool} {t : State} (h : exec (.programDone ok) s = .next t) :
    t.services = s.services := by
  change execProgramDone ok s = _ at h
  rw [execProgramDone, run_powered _ _ powered] at h
  obtain rfl := Host.Outcome.next.inj h
  split
  · exact programEnds_services noHold _ _
  · rfl

theorem eraseComplete_services {ok : Bool} {t : State} (h : exec (.eraseComplete ok) s = .next t) :
    t.services = s.services := by
  change execEraseComplete ok s = _ at h
  rw [execEraseComplete, run_powered _ _ powered] at h
  obtain rfl := Host.Outcome.next.inj h
  split
  · split
    · exact eraseEnds_services noHold _ _
    · rfl
  · rfl

end

/-- An archive with the flash of another but for one block. -/
theorem Archive.blocks_of_setBlock {a b : Archive} {i : Nat} {f : FlashBlock → FlashBlock} (inside : i < a.flash.length)
    (h : b.flash = (a.setBlock i f).flash) : b.block i = f (a.block i) ∧ ∀ j, j ≠ i → b.block j = a.block j := by
  have agree (j : Nat) : b.block j = (a.setBlock i f).block j := congrArg (·.getD j ⟨none, []⟩) h
  exact ⟨(agree i).trans (a.setBlock_same i f inside), fun j other => (agree j).trans (a.setBlock_other i j f other)⟩

/-- Settles O51: the local timebase leaves the operation its block, and each end is a lemma above. -/
theorem flashOperationsEnd : Obligations.FlashOperationsEnd := by
  unfold Obligations.FlashOperationsEnd
  intro s powered noHold blocks entries wrap
  refine ⟨?completes, ?fails, ?erased, ?spoiled, ?services⟩
  case completes =>
    intro p running noErase _ inside short current
    obtain ⟨q, passed⟩ := advance_idle p.left noHold noErase
    have flash := programCompletes_flash (s := advance p.left s) (p := p) (by rw [passed]; exact noErase)
      (by rw [passed]; exact short) (by rw [passed]; exact current)
    rw [passed] at flash
    obtain ⟨written, others⟩ := Archive.blocks_of_setBlock (blocks ▸ inside) flash
    have slot := (congrArg (·.read p.slot) written).trans (FlashBlock.read_write_same _ _ _)
    exact ⟨_, exec_programDone powered running true, slot, others⟩
  case fails =>
    intro p running noErase _ inside
    obtain ⟨q, passed⟩ := advance_idle p.left noHold noErase
    have marks := programFails_marks (s := advance p.left s) (by rw [passed]; exact wrap) p
    rw [passed, Archive.marks, Prod.mk.injEq, Prod.mk.injEq, Prod.mk.injEq] at marks
    obtain ⟨flash, failed, error, done⟩ := marks
    obtain ⟨written, others⟩ := Archive.blocks_of_setBlock (blocks ▸ inside) flash
    have slot := (congrArg (·.read p.slot) written).trans (FlashBlock.read_write_same _ _ _)
    exact ⟨_, exec_programDone powered running false, slot, failed, error, done, others⟩
  case erased =>
    intro e running _ erasing internal inside _
    obtain ⟨q, e', passed, block, origin, ends⟩ := eraseEnds_eq noHold running true
    obtain ⟨flash, noErase, pointer, current⟩ := eraseCompletes_internal (s := advance e.left s) (origin.trans internal)
      (by rw [passed, block]; exact entries ▸ inside)
    rw [passed, block] at flash
    rw [block] at pointer current
    obtain ⟨written, others⟩ := Archive.blocks_of_setBlock (blocks ▸ inside) flash
    exact ⟨_, (exec_eraseComplete powered running erasing true).trans (congrArg _ ends), congrArg (·.header) written, noErase,
      pointer, current, others⟩
  case spoiled =>
    intro e running _ erasing inside
    obtain ⟨q, e', passed, block, -, ends⟩ := eraseEnds_eq noHold running false
    obtain ⟨flash, bad, failed⟩ := eraseFails_archive (s := advance e.left s) (e := e')
      (by rw [passed, block]; exact entries ▸ inside)
    rw [passed] at flash
    rw [block] at bad
    exact ⟨_, (exec_eraseComplete powered running erasing false).trans (congrArg _ ends), flash, bad, failed⟩
  case services =>
    intro ok t ended
    have kept : t.services = s.services := by
      rcases ended with h | h
      · exact programDone_services noHold powered h
      · exact eraseComplete_services noHold powered h
    simpa only [State.services, Prod.mk.injEq] using kept

end Sys2Proof.Machine
end
